-- ==== Sys2Proof/Word.lean ====
section
/-! DEFINITION. The word types of RADSEQ. Every value of the block is an unsigned number of a stated width
(spec/00_scope.md R12); a wrap never happens silently, so the arithmetic of the rules is done on `Nat` and narrowed
where a rule says so. -/

namespace Sys2Proof

/-- A byte of the module image or of an instrument record (R60, R35). -/
abbrev Byte := BitVec 8

/-- A host request word, format REQ (R109). -/
abbrev ReqWord := BitVec 16

/-- A pattern offset (R97), and the DATA field of a response (R110). -/
abbrev Half := BitVec 16

/-- One entry of the pattern ROM, format CELL (R105). -/
abbrev CellWord := BitVec 24

/-- One output command, format CMD: header in bits 15:0, data in bits 103:16 (R106). -/
abbrev CmdWord := BitVec 104

end Sys2Proof
end

