-- ==== Sys2Proof/Config.lean ====
section
/-! DEFINITION. The open parameters of spec/00_scope.md R10. None has a value a proof can see. -/

namespace Sys2Proof

/-- How far ROM_ADDR_W goes past its least value 16 (R10, D5); open. -/
opaque Config.extraAddrBits : Nat

/-- ROM_ADDR_W, the width of a module ROM address, at least 16 (R10). -/
def Config.romAddrW : Nat := 16 + Config.extraAddrBits

/-- TICK_PERIOD_NORMAL, one of the host's two base rates; open, read by no rule of the block (R10, R251). -/
opaque Config.tickPeriodNormal : Nat

/-- TICK_PERIOD_SLOW, the other base rate; open, read by no rule of the block (R10, R251). -/
opaque Config.tickPeriodSlow : Nat

end Sys2Proof
end

