-- ==== Sys2Proof/Syntax.lean ====
section
/-! DEFINITION. The instructions of RADSEQ as syntax: one constructor per row of spec/opcode_table.json. They are the
host's requests, the tokens of the module image, the pattern cells and the output commands (spec/00_scope.md R2). -/

namespace Sys2Proof

/-- The registers RDREG can read, in the order of their numbers 0..7 (spec/10_state.md, section 2). -/
inductive RegName where
  | ctrl | status | speed | order | row | tickcnt | songlen | curpat
  deriving DecidableEq, Repr

/-- The encodings the block reads or writes. Bits alone do not tell the formats apart: the place a word is read from
does (R90, R98, R109, R175). The length byte and the entries of OLIST (R96) are two formats here. -/
inductive Format where
  | req | hdr | desc | islot | irec | olen | oent | pofs | line | chan | note | param | cell | cmd
  deriving DecidableEq, Repr

/-- The instructions. Field names are those of the table; a field the block ignores is kept, so that decoding drops
no bit. -/
inductive Instr where
  /-- RESET request (R211). -/
  | reset
  /-- LOAD request (R130). -/
  | load
  /-- TICK request (R170). -/
  | tick
  /-- WRCTRL request with the new LOOP bit (R212). -/
  | wrctrl (loop : Bool)
  /-- RDREG of an existing register (R213). -/
  | rdreg (reg : RegName)
  /-- RDREG of a register number 8..15 (R213, R32). -/
  | rdregReservedReg (reg : BitVec 4)
  /-- Reserved request, OP = 0x5 (R214). -/
  | reservedOp5 (operand : BitVec 12)
  /-- Reserved request, OP = 0x6 (R214). -/
  | reservedOp6 (operand : BitVec 12)
  /-- Reserved request, OP = 0x7 (R214). -/
  | reservedOp7 (operand : BitVec 12)
  /-- Reserved request, OP in 0x8..0xF (R214). -/
  | reservedOp8F (op : BitVec 4) (operand : BitVec 12)
  /-- A request of OP 0..4 with a reserved operand bit set (R215). -/
  | illegalOperand (op : BitVec 4) (operand : BitVec 12)
  /-- Header flags byte (R92). -/
  | hdr (desc slow ignored : Bool) (speed : BitVec 5)
  /-- A nonzero byte of the description block (R93). -/
  | descByte (b : Byte)
  /-- The zero byte that ends the description block (R93). -/
  | descEnd
  /-- The zero byte that ends the instrument table (R94). -/
  | islotEnd
  /-- Instrument slot byte 1..31 (R94). -/
  | islot (n : BitVec 5)
  /-- Instrument slot byte 32..255 (R136). -/
  | islotBad (n : Byte)
  /-- One byte of an instrument record (R95). -/
  | irecByte (b : Byte)
  /-- Order list length byte (R96). -/
  | olen (l : Byte)
  /-- Order list entry (R96). -/
  | oent (slot : Byte)
  /-- Pattern offset word 0: the slot is unused (R97, R141). -/
  | pofsUnused
  /-- Nonzero pattern offset word (R97). -/
  | pofs (ofs : Half)
  /-- Line byte with bit 7 clear (R99). -/
  | line (ignored : Bool) (row : BitVec 6)
  /-- Line byte with bit 7 set: the last line of the pattern (R99, R148). -/
  | lineLast (ignored : Bool) (row : BitVec 6)
  /-- Channel byte with bit 7 clear (R100). -/
  | chan (ignored : BitVec 3) (chidx : BitVec 4)
  /-- Channel byte with bit 7 set: the last cell of the line (R100, R147). -/
  | chanLast (ignored : BitVec 3) (chidx : BitVec 4)
  /-- Note pair with effect id 0: no parameter byte follows (R101, R103). -/
  | noteNoparam (ihi : Bool) (oct : BitVec 3) (note ilo : BitVec 4)
  /-- Note pair with a nonzero effect id: one parameter byte follows (R101, R103). -/
  | noteParam (ihi : Bool) (oct : BitVec 3) (note ilo eff : BitVec 4)
  /-- Effect parameter byte (R103). -/
  | param (p : Byte)
  /-- Cell with NOTE = 0 (R104, R178). -/
  | cellEmpty (inst : BitVec 5) (oct : BitVec 3) (eff : BitVec 4) (param : Byte)
  /-- Cell with NOTE = 15 (R104, R177). -/
  | cellKeyoff (inst : BitVec 5) (oct : BitVec 3) (eff : BitVec 4) (param : Byte)
  /-- Cell with NOTE in 1..14 and INST = 0 (R104, R176). -/
  | cellNote (oct : BitVec 3) (note eff : BitVec 4) (param : Byte)
  /-- Cell with NOTE in 1..14 and INST in 1..31 (R104, R176). -/
  | cellNoteInst (inst : BitVec 5) (oct : BitVec 3) (note eff : BitVec 4) (param : Byte)
  /-- SetInstrument command (R106, R107, R182). -/
  | setInstrument (ch : BitVec 4) (loaded : Bool) (inst : BitVec 5) (data : BitVec 88)
  /-- SetFrequency command (R106, R183). -/
  | setFrequency (ch : BitVec 4) (oct : BitVec 3) (note : BitVec 4)
  /-- KeyOn command (R106, R184). -/
  | keyOn (ch : BitVec 4)
  /-- KeyOff command (R106, R185). -/
  | keyOff (ch : BitVec 4)
  deriving DecidableEq, Repr

end Sys2Proof
end

