-- ==== Sys2Proof/WellFormed.lean ====
section
/-! DEFINITION. Which operands an encoding can hold: the "constraint" entries of spec/opcode_table.json, and the
command words the block emits (spec/30_encoding.md R114). -/

namespace Sys2Proof

/-- The reserved bits of a request's OPERAND are not all zero, for OP 0..4 (R113, R215). RDREG's register number is
judged apart (R213). -/
def reservedBitsSet (op : BitVec 4) (operand : BitVec 12) : Bool :=
  if op.toNat < 3 then operand != 0
  else if op = 3 then operand.extractLsb 11 1 != 0
  else if op = 4 then operand.extractLsb 11 4 != 0
  else false

/-- Note values that name a pitch class: 1..14 (R104, R114). -/
def isPitch (note : BitVec 4) : Bool := note != 0 && note != 15

/-- Channels a command may carry: 0..8 (R106, R114). -/
def isChannel (ch : BitVec 4) : Bool := decide (ch.toNat < 9)

/-- The operands are ones the instruction's encoding can hold. -/
def Instr.wellFormed : Instr → Bool
  | .reset | .load | .tick | .wrctrl _ | .rdreg _ => true
  | .rdregReservedReg r => decide (8 ≤ r.toNat)
  | .reservedOp5 _ | .reservedOp6 _ | .reservedOp7 _ => true
  | .reservedOp8F op _ => decide (8 ≤ op.toNat)
  | .illegalOperand op operand => reservedBitsSet op operand
  | .hdr .. => true
  | .descByte b => b != 0
  | .descEnd | .islotEnd => true
  | .islot n => n != 0
  | .islotBad n => decide (32 ≤ n.toNat)
  | .irecByte _ | .olen _ | .oent _ | .pofsUnused => true
  | .pofs ofs => ofs != 0
  | .line .. | .lineLast .. | .chan .. | .chanLast .. | .noteNoparam .. => true
  | .noteParam _ _ _ _ eff => eff != 0
  | .param _ | .cellEmpty .. | .cellKeyoff .. => true
  | .cellNote _ note _ _ => isPitch note
  | .cellNoteInst inst _ note _ _ => inst != 0 && isPitch note
  | .setInstrument ch _ inst _ => isChannel ch && inst != 0
  | .setFrequency ch _ note => isChannel ch && isPitch note
  | .keyOn ch => isChannel ch
  | .keyOff ch => isChannel ch

end Sys2Proof
end

