-- ==== Sys2Proof/Decode.lean ====
section
/-! DEFINITION. Decoding and encoding, from spec/30_encoding.md. Decoding is total: a number is read under a format
and gives an instruction or a rejection with a name. The encoder is written from the same tables. -/

namespace Sys2Proof

/-- Why a number is no word of a format. -/
inductive Reject where
  /-- The number does not fit the format's width. Safe. -/
  | tooWide
  /-- A command on a channel 9..15, which the block never emits (R114). Safe. -/
  | channelOutOfRange
  /-- A SetInstrument of instrument 0 (R114). Safe. -/
  | instrumentZero
  /-- A SetFrequency of note 0 or 15 (R114). Safe. -/
  | noteOutOfRange
  /-- A command with a reserved ARG bit set (R114). Safe. -/
  | reservedArgBits
  /-- DATA that is not zero outside a SetInstrument (R114). Safe. -/
  | dataOutsideSetInstrument
  deriving DecidableEq, Repr

/-- What a decoder answers. -/
inductive Decoded where
  | instr (i : Instr)
  | rejected (r : Reject)
  deriving DecidableEq, Repr

/-- An encoded instruction: its format and its bits as a number, bit 0 least significant. -/
structure Code where
  fmt : Format
  bits : Nat
  deriving DecidableEq, Repr

/-- Width in bits of a word of the format (the table's "width"). -/
def Format.width : Format → Nat
  | .req => 16
  | .hdr | .desc | .islot | .irec | .olen | .oent => 8
  | .pofs => 16
  | .line | .chan => 8
  | .note => 16
  | .param => 8
  | .cell => 24
  | .cmd => 104

/-- The register a number 0..7 names (spec/10_state.md, section 2). -/
def RegName.ofNumber (r : BitVec 3) : RegName :=
  if r = 0 then .ctrl else if r = 1 then .status else if r = 2 then .speed else if r = 3 then .order
  else if r = 4 then .row else if r = 5 then .tickcnt else if r = 6 then .songlen else .curpat

/-- The number of a register (spec/10_state.md, section 2). -/
def RegName.number : RegName → BitVec 3
  | .ctrl => 0 | .status => 1 | .speed => 2 | .order => 3
  | .row => 4 | .tickcnt => 5 | .songlen => 6 | .curpat => 7

/-- Format REQ: OP in bits 15:12, OPERAND in bits 11:0 (R109, R113). Every word is one request. -/
def decodeReq (w : ReqWord) : Instr :=
  let op := w.extractLsb 15 12
  let operand := w.extractLsb 11 0
  if reservedBitsSet op operand then .illegalOperand op operand
  else if op = 0 then .reset
  else if op = 1 then .load
  else if op = 2 then .tick
  else if op = 3 then .wrctrl (w.getLsbD 0)
  else if op = 4 then
    if w.getLsbD 3 then .rdregReservedReg (w.extractLsb 3 0) else .rdreg (RegName.ofNumber (w.extractLsb 2 0))
  else if op = 5 then .reservedOp5 operand
  else if op = 6 then .reservedOp6 operand
  else if op = 7 then .reservedOp7 operand
  else .reservedOp8F op operand

/-- Format HDR (R92). -/
def decodeHdr (b : Byte) : Instr :=
  .hdr (b.getLsbD 7) (b.getLsbD 6) (b.getLsbD 5) (b.extractLsb 4 0)

/-- Format DESC (R93). -/
def decodeDesc (b : Byte) : Instr := if b = 0 then .descEnd else .descByte b

/-- Format ISLOT (R94). -/
def decodeIslot (b : Byte) : Instr :=
  if b = 0 then .islotEnd else if b.toNat < 32 then .islot (b.extractLsb 4 0) else .islotBad b

/-- Format POFS (R97). -/
def decodePofs (w : Half) : Instr := if w = 0 then .pofsUnused else .pofs w

/-- Format LINE (R99). -/
def decodeLine (b : Byte) : Instr :=
  if b.getLsbD 7 then .lineLast (b.getLsbD 6) (b.extractLsb 5 0) else .line (b.getLsbD 6) (b.extractLsb 5 0)

/-- Format CHAN (R100). -/
def decodeChan (b : Byte) : Instr :=
  if b.getLsbD 7 then .chanLast (b.extractLsb 6 4) (b.extractLsb 3 0)
  else .chan (b.extractLsb 6 4) (b.extractLsb 3 0)

/-- Format NOTE, on N with NOTE0 in bits 15:8 and NOTE1 in bits 7:0 (R101, R103). -/
def decodeNote (n : Half) : Instr :=
  if n.extractLsb 3 0 = 0 then
    .noteNoparam (n.getLsbD 15) (n.extractLsb 14 12) (n.extractLsb 11 8) (n.extractLsb 7 4)
  else
    .noteParam (n.getLsbD 15) (n.extractLsb 14 12) (n.extractLsb 11 8) (n.extractLsb 7 4) (n.extractLsb 3 0)

/-- Format CELL: the class is chosen by NOTE, then by INST (R104, R105). Every word is one cell. -/
def decodeCell (w : CellWord) : Instr :=
  let inst := w.extractLsb 23 19
  let oct := w.extractLsb 18 16
  let note := w.extractLsb 15 12
  let eff := w.extractLsb 11 8
  let param := w.extractLsb 7 0
  if note = 0 then .cellEmpty inst oct eff param
  else if note = 15 then .cellKeyoff inst oct eff param
  else if inst = 0 then .cellNote oct note eff param
  else .cellNoteInst inst oct note eff param

/-- Format CMD (R106, R107); the words of R114 are rejected by name. -/
def decodeCmd (w : CmdWord) : Decoded :=
  let kind := w.extractLsb 15 14
  let ch := w.extractLsb 13 10
  let data := w.extractLsb 103 16
  if !isChannel ch then .rejected .channelOutOfRange
  else if kind = 0 then
    if w.extractLsb 9 6 != 0 then .rejected .reservedArgBits
    else if w.extractLsb 4 0 = 0 then .rejected .instrumentZero
    else .instr (.setInstrument ch (w.getLsbD 5) (w.extractLsb 4 0) data)
  else if data != 0 then .rejected .dataOutsideSetInstrument
  else if kind = 1 then
    if w.extractLsb 9 7 != 0 then .rejected .reservedArgBits
    else if !isPitch (w.extractLsb 3 0) then .rejected .noteOutOfRange
    else .instr (.setFrequency ch (w.extractLsb 6 4) (w.extractLsb 3 0))
  else if w.extractLsb 9 0 != 0 then .rejected .reservedArgBits
  else if kind = 2 then .instr (.keyOn ch)
  else .instr (.keyOff ch)

/-- The instruction a number stands for under a format, or a rejection by name. -/
def decode (c : Code) : Decoded :=
  if c.bits < 2 ^ c.fmt.width then
    match c.fmt with
    | .req => .instr (decodeReq (BitVec.ofNat 16 c.bits))
    | .hdr => .instr (decodeHdr (BitVec.ofNat 8 c.bits))
    | .desc => .instr (decodeDesc (BitVec.ofNat 8 c.bits))
    | .islot => .instr (decodeIslot (BitVec.ofNat 8 c.bits))
    | .irec => .instr (.irecByte (BitVec.ofNat 8 c.bits))
    | .olen => .instr (.olen (BitVec.ofNat 8 c.bits))
    | .oent => .instr (.oent (BitVec.ofNat 8 c.bits))
    | .pofs => .instr (decodePofs (BitVec.ofNat 16 c.bits))
    | .line => .instr (decodeLine (BitVec.ofNat 8 c.bits))
    | .chan => .instr (decodeChan (BitVec.ofNat 8 c.bits))
    | .note => .instr (decodeNote (BitVec.ofNat 16 c.bits))
    | .param => .instr (.param (BitVec.ofNat 8 c.bits))
    | .cell => .instr (decodeCell (BitVec.ofNat 24 c.bits))
    | .cmd => decodeCmd (BitVec.ofNat 104 c.bits)
  else .rejected .tooWide

/-! ### Encoding -/

/-- A request word of an OP and an OPERAND (R109). -/
def reqWord (op : BitVec 4) (operand : BitVec 12) : ReqWord := op ++ operand

/-- A cell word (R105). -/
def cellWord (inst : BitVec 5) (oct : BitVec 3) (note eff : BitVec 4) (param : Byte) : CellWord :=
  inst ++ oct ++ note ++ eff ++ param

/-- The SetInstrument command word: KIND 0, ARG = LOADED in bit 5 and the number in bits 4:0 (R106, R107). -/
def setInstrumentWord (ch : BitVec 4) (loaded : Bool) (inst : BitVec 5) (data : BitVec 88) : CmdWord :=
  data ++ 0#2 ++ ch ++ 0#4 ++ BitVec.ofBool loaded ++ inst

/-- The SetFrequency command word: KIND 1, ARG = octave in bits 6:4 and note in bits 3:0 (R106, R107). -/
def setFrequencyWord (ch : BitVec 4) (oct : BitVec 3) (note : BitVec 4) : CmdWord :=
  0#88 ++ 1#2 ++ ch ++ 0#3 ++ oct ++ note

/-- The KeyOn command word: KIND 2, ARG 0 (R106, R107). -/
def keyOnWord (ch : BitVec 4) : CmdWord := 0#88 ++ 2#2 ++ ch ++ 0#10

/-- The KeyOff command word: KIND 3, ARG 0 (R106, R107). -/
def keyOffWord (ch : BitVec 4) : CmdWord := 0#88 ++ 3#2 ++ ch ++ 0#10

/-- A line byte (R99). -/
def lineByte (last ignored : Bool) (row : BitVec 6) : Byte := BitVec.ofBool last ++ BitVec.ofBool ignored ++ row

/-- A channel byte (R100). -/
def chanByte (last : Bool) (ignored : BitVec 3) (chidx : BitVec 4) : Byte := BitVec.ofBool last ++ ignored ++ chidx

/-- A note pair N = NOTE0 above NOTE1 (R101). -/
def noteWord (ihi : Bool) (oct : BitVec 3) (note ilo eff : BitVec 4) : Half :=
  BitVec.ofBool ihi ++ oct ++ note ++ ilo ++ eff

/-- A header flags byte (R92). -/
def hdrByte (desc slow ignored : Bool) (speed : BitVec 5) : Byte :=
  BitVec.ofBool desc ++ BitVec.ofBool slow ++ BitVec.ofBool ignored ++ speed

/-- The encoding of an instruction: its format and its bits. -/
def encode : Instr → Code
  | .reset => ⟨.req, (reqWord 0 0).toNat⟩
  | .load => ⟨.req, (reqWord 1 0).toNat⟩
  | .tick => ⟨.req, (reqWord 2 0).toNat⟩
  | .wrctrl l => ⟨.req, (reqWord 3 (0#11 ++ BitVec.ofBool l)).toNat⟩
  | .rdreg r => ⟨.req, (reqWord 4 (0#9 ++ r.number)).toNat⟩
  | .rdregReservedReg r => ⟨.req, (reqWord 4 (0#8 ++ r)).toNat⟩
  | .reservedOp5 operand => ⟨.req, (reqWord 5 operand).toNat⟩
  | .reservedOp6 operand => ⟨.req, (reqWord 6 operand).toNat⟩
  | .reservedOp7 operand => ⟨.req, (reqWord 7 operand).toNat⟩
  | .reservedOp8F op operand => ⟨.req, (reqWord op operand).toNat⟩
  | .illegalOperand op operand => ⟨.req, (reqWord op operand).toNat⟩
  | .hdr d sl ig sp => ⟨.hdr, (hdrByte d sl ig sp).toNat⟩
  | .descByte b => ⟨.desc, b.toNat⟩
  | .descEnd => ⟨.desc, 0⟩
  | .islotEnd => ⟨.islot, 0⟩
  | .islot n => ⟨.islot, (0#3 ++ n).toNat⟩
  | .islotBad n => ⟨.islot, n.toNat⟩
  | .irecByte b => ⟨.irec, b.toNat⟩
  | .olen l => ⟨.olen, l.toNat⟩
  | .oent e => ⟨.oent, e.toNat⟩
  | .pofsUnused => ⟨.pofs, 0⟩
  | .pofs ofs => ⟨.pofs, ofs.toNat⟩
  | .line ig row => ⟨.line, (lineByte false ig row).toNat⟩
  | .lineLast ig row => ⟨.line, (lineByte true ig row).toNat⟩
  | .chan ig c => ⟨.chan, (chanByte false ig c).toNat⟩
  | .chanLast ig c => ⟨.chan, (chanByte true ig c).toNat⟩
  | .noteNoparam ihi oct note ilo => ⟨.note, (noteWord ihi oct note ilo 0).toNat⟩
  | .noteParam ihi oct note ilo eff => ⟨.note, (noteWord ihi oct note ilo eff).toNat⟩
  | .param p => ⟨.param, p.toNat⟩
  | .cellEmpty inst oct eff p => ⟨.cell, (cellWord inst oct 0 eff p).toNat⟩
  | .cellKeyoff inst oct eff p => ⟨.cell, (cellWord inst oct 15 eff p).toNat⟩
  | .cellNote oct note eff p => ⟨.cell, (cellWord 0 oct note eff p).toNat⟩
  | .cellNoteInst inst oct note eff p => ⟨.cell, (cellWord inst oct note eff p).toNat⟩
  | .setInstrument ch l inst data => ⟨.cmd, (setInstrumentWord ch l inst data).toNat⟩
  | .setFrequency ch oct note => ⟨.cmd, (setFrequencyWord ch oct note).toNat⟩
  | .keyOn ch => ⟨.cmd, (keyOnWord ch).toNat⟩
  | .keyOff ch => ⟨.cmd, (keyOffWord ch).toNat⟩

/-- The bytes of a module token in image order: the offset word low byte first (R63, R65), the note pair NOTE0 first
(R101). Requests, cells and commands do not stand in the image. -/
def Code.imageBytes (c : Code) : List Byte :=
  match c.fmt with
  | .req | .cell | .cmd => []
  | .pofs => [BitVec.ofNat 8 c.bits, BitVec.ofNat 8 (c.bits / 256)]
  | .note => [BitVec.ofNat 8 (c.bits / 256), BitVec.ofNat 8 c.bits]
  | .hdr | .desc | .islot | .irec | .olen | .oent | .line | .chan | .param => [BitVec.ofNat 8 c.bits]

/-- The format under which a word of the table is read when nothing but its width is known: of the formats of that
width, the one with the most rows (log 13). -/
def formatOfWidth (nbits : Nat) : Option Format :=
  if nbits = 8 then some .islot
  else if nbits = 16 then some .req
  else if nbits = 24 then some .cell
  else if nbits = 104 then some .cmd
  else none

/-- The instruction the decoder reads from a table word given as a number. -/
def decodeTableWord (nbits w : Nat) : Option Instr :=
  match formatOfWidth nbits with
  | none => none
  | some f =>
    match decode ⟨f, w⟩ with
    | .instr i => some i
    | .rejected _ => none

end Sys2Proof
end

