-- ==== Sys2Proof/Machine/State.lean ====
section
/-! DEFINITION. The state of RADSEQ as plain data (spec/10_state.md), its value after reset (R42), and the reasons a
step can stop. -/

namespace Sys2Proof.Machine

/-- STATUS.STATE (R23); the code 3 is never held. -/
inductive SeqState where
  /-- No song is loaded. -/
  | idle
  /-- Normal advance. -/
  | playing
  /-- The source's terminal state `SongEnded`. -/
  | ended
  deriving DecidableEq, Repr

/-- The error codes of R240. -/
inductive ErrCode where
  | none
  | truncatedInput
  | malformedModule
  /-- Reserved; no rule raises it (R244). -/
  | unsupportedFeature
  deriving DecidableEq, Repr

/-- CODE of a response (R110); the code 3 is never given. -/
inductive RespCode where
  | ok | illegal | loadFailed
  deriving DecidableEq, Repr

/-- The response to one request (R110). -/
structure Response where
  code : RespCode
  data : Half
  cmds : List CmdWord
  deriving DecidableEq, Repr

/-- What the load engine does next: read the token of a format, or one of the two steps that read none (the slot
walk of R140, the validation of R150 to R153). -/
inductive Phase where
  | hdr | desc | islot | irec | olen | oent | pofs | slot | line | chan | note | param | validate
  deriving DecidableEq, Repr

/-- The locals of LOAD's pseudocode (R133 to R145). -/
structure LoadVars where
  /-- n − 1, the IROM entry of the record being read (R137). -/
  entry : Fin 31
  /-- k, the byte of the record (R137). -/
  byteNo : Fin 11
  /-- i, the order list entry (R138). -/
  orderNo : Fin 255
  /-- s, the pattern slot (R139, R140). -/
  slot : Fin 32
  /-- row, of the line being decoded (R142). -/
  row : BitVec 6
  /-- line[7], the line is the pattern's last (R148). -/
  lineLast : Bool
  /-- c, the channel of the cell being decoded (R143). -/
  chan : Fin 9
  /-- ch[7], the cell is the line's last (R147). -/
  chanLast : Bool
  /-- inst, oct, note and eff, of a cell whose parameter byte is still to be read (R144). -/
  inst : BitVec 5
  oct : BitVec 3
  note : BitVec 4
  eff : BitVec 4
  deriving DecidableEq, Repr

/-- The locals before a LOAD has assigned any (log 17). -/
def LoadVars.initial : LoadVars :=
  { entry := 0, byteNo := 0, orderNo := 0, slot := 0, row := 0, lineLast := false, chan := 0, chanLast := false,
    inst := 0, oct := 0, note := 0, eff := 0 }

/-- Where inside a request the block stands. Between requests it is `idle`; a LOAD and a TICK pass through the other
positions within their one atomic step (R14; log 2). -/
inductive Engine where
  | idle
  /-- Inside LOAD. -/
  | load (phase : Phase)
  /-- Inside TICK: the cell of channel c is next (R174). -/
  | cells (c : Fin 9)
  /-- Inside TICK: the tick advance is next (R179). -/
  | tickEnd
  /-- Inside TICK: this command word is next to be emitted (R181). -/
  | emit (w : CmdWord)
  deriving DecidableEq, Repr

/-- What the host does at the block's boundary (R216). -/
inductive HostAction where
  /-- Issue a request word. -/
  | request (w : ReqWord)
  /-- Put this image into the module ROM; ROM_LEN becomes its length. -/
  | image (bytes : List Byte)
  deriving DecidableEq, Repr

/-- The song state (R37). -/
structure Song where
  /-- STATUS.SLOW_TIMER (R26). -/
  slowTimer : Bool
  /-- SPEED, register 2 (R28). -/
  speed : BitVec 5
  /-- SONGLEN, register 6 (R30). -/
  songlen : BitVec 8
  /-- ORDLIST[0..254] (R33). -/
  ordlist : Vector Byte 255
  /-- POFS[0..31] (R34). -/
  pofs : Vector Half 32
  /-- IROM[0..30][0..10] (R35). -/
  irom : Vector (Vector Byte 11) 31
  /-- ILOADED[0..30] (R35). -/
  iloaded : Vector Bool 31
  /-- PROM (R36), as the cells that are not empty, by rising CellAddr (R70; log 16). -/
  prom : List (Nat × CellWord)
  deriving DecidableEq, Repr

/-- The song state's reset values (R42). -/
def Song.empty : Song :=
  { slowTimer := false, speed := 0, songlen := 0,
    ordlist := Vector.replicate 255 0, pofs := Vector.replicate 32 0,
    irom := Vector.replicate 31 (Vector.replicate 11 0), iloaded := Vector.replicate 31 false, prom := [] }

/-- The state: the registers and stores of spec/10_state.md, the module ROM the reader walks (R60), what goes over
the host interface, and the position inside a request. -/
structure State where
  /-- CTRL.LOOP (R21). -/
  loop : Bool
  /-- STATUS.STATE (R23). -/
  seq : SeqState
  /-- STATUS.ERR (R24). -/
  err : ErrCode
  /-- STATUS.ROW_BOUNDARY (R25). -/
  rowBoundary : Bool
  /-- STATUS.ORDER_BOUNDARY (R25). -/
  orderBoundary : Bool
  /-- STATUS.EOS (R27). -/
  eos : Bool
  /-- ORDER, register 3 (R29). -/
  order : BitVec 8
  /-- ROW, register 4 (R29). -/
  row : BitVec 6
  /-- TICKCNT, register 5 (R29). -/
  tickcnt : BitVec 5
  /-- CURPAT, register 7 (R31). -/
  curpat : BitVec 5
  /-- The song state (R37). -/
  song : Song
  /-- POS, the reader's cursor (R38). -/
  pos : Nat
  /-- The module ROM's bytes that are not 0, by rising address (R60; log 4). -/
  rom : List Host.Cell
  /-- ROM_LEN (R10, R60). -/
  romLen : Nat
  /-- Where inside a request the block stands (log 2). -/
  engine : Engine
  /-- The locals of the running LOAD (log 17). -/
  vars : LoadVars
  /-- c, the channel counter of the running TICK (R174; log 17). -/
  chan : Fin 9
  /-- cmds, the command list of the running TICK (R173, R181; log 17). -/
  cmds : List CmdWord
  /-- The host's actions not yet taken, the next one first (R210; log 1). -/
  host : List HostAction
  /-- The response to the last request, if there was one (R110; log 15). -/
  response : Option Response
  deriving DecidableEq, Repr

/-- The state after power-on: R42 for the block; no image in the ROM, no request issued, none answered
(logs 1, 3, 15, 17). -/
def State.reset : State :=
  { loop := false, seq := .idle, err := .none, rowBoundary := false, orderBoundary := false, eos := false,
    order := 0, row := 0, tickcnt := 0, curpat := 0, song := Song.empty, pos := 0,
    rom := [], romLen := 0, engine := .idle, vars := LoadVars.initial, chan := 0, cmds := [],
    host := [], response := none }

/-- The reasons the machine stops with a fault. The spec names none: a failed LOAD and a refused request are next
states. No state a run from reset reaches raises one. -/
inductive Fault where
  /-- The tick advance (R179) in PLAYING with SPEED = 0, where "mod 0 has no meaning" (R150); R39 excludes it.
  Raised by finishTick. Safe. -/
  | speedZero
  /-- ORDLIST[255], which does not exist (R33, R69); R39 excludes it. Raised by rowAdvance. Safe. -/
  | orderOutsideList
  /-- A request whose loop did not end within its bound; R156 and R174 exclude it. Raised by runRequest. Safe. -/
  | requestUnfinished
  deriving DecidableEq, Repr

/-- The reasons an instruction is refused. -/
inductive Refusal where
  /-- The instruction has no meaning in the model yet. Safe. -/
  | notModelled (mnemonic : String)
  /-- A command word the block never emits, which a consumer may refuse (R114, I7). Raised by the four command
  meanings, and by step at such a word. Safe. -/
  | commandNeverEmitted
  /-- A request met inside another request: no defined result (R210, I8). Raised by runInner. Safe. -/
  | overlappingRequest
  /-- A module image of more than 2^ROM_ADDR_W bytes (R10). Raised by placeImage. Safe. -/
  | imageTooLong
  deriving DecidableEq, Repr

/-- What a meaning answers. -/
abbrev Result := Host.Outcome State Fault Refusal

end Sys2Proof.Machine
end

