-- ==== Sys2Proof/Machine/Flags.lean ====
section
/-! DEFINITION. The STATUS word and the flags in it (spec/10_state.md R22 to R27), and the code numbers of R22, R110
and R240. -/

namespace Sys2Proof.Machine

/-- The number of STATUS.STATE (R22). -/
def SeqState.code : SeqState → BitVec 2
  | .idle => 0
  | .playing => 1
  | .ended => 2

/-- The number of an error code (R240). -/
def ErrCode.code : ErrCode → BitVec 3
  | .none => 0
  | .truncatedInput => 1
  | .malformedModule => 2
  | .unsupportedFeature => 3

/-- The number of a response code (R110). -/
def RespCode.code : RespCode → BitVec 2
  | .ok => 0
  | .illegal => 1
  | .loadFailed => 2

/-- The STATUS register: EOS, SLOW_TIMER, ORDER_BOUNDARY, ROW_BOUNDARY, ERR, STATE from bit 8 down (R22). -/
def State.status (s : State) : BitVec 16 :=
  0#7 ++ BitVec.ofBool s.eos ++ BitVec.ofBool s.song.slowTimer ++ BitVec.ofBool s.orderBoundary
    ++ BitVec.ofBool s.rowBoundary ++ s.err.code ++ s.seq.code

/-- Both boundary flags cleared (R25, R173). -/
def clearBoundaries (s : State) : State := { s with rowBoundary := false, orderBoundary := false }

end Sys2Proof.Machine
end

