-- ==== Sys2Proof/Machine/Ops.lean ====
section
/-! DEFINITION. The shared operations: the canonical stores, the reader primitives (spec/20_memory.md R60 to R64),
the response (R110), fault entry (spec/60_exceptions.md R243) and emission (R181). There is no return from a fault
(R249). -/

namespace Sys2Proof.Machine

/-! ### Stores in canonical form: keys strictly rising, no entry equal to what an unlisted key reads as -/

/-- The entry at a key; `d` where the key is not listed. -/
def Store.read {α : Type} (d : α) : List (Nat × α) → Nat → α
  | [], _ => d
  | (k, x) :: m, a => if k = a then x else Store.read d m a

/-- The store with the entry at a key replaced; writing `d` removes the entry. -/
def Store.write {α : Type} [DecidableEq α] (d : α) : List (Nat × α) → Nat → α → List (Nat × α)
  | [], a, v => if v = d then [] else [(a, v)]
  | (k, x) :: m, a, v =>
    if a < k then (if v = d then (k, x) :: m else (a, v) :: (k, x) :: m)
    else if a = k then (if v = d then m else (a, v) :: m)
    else (k, x) :: Store.write d m a v

/-- The canonical form. -/
def Store.wf {α : Type} [DecidableEq α] (d : α) : List (Nat × α) → Bool
  | [] => true
  | (k, x) :: m => decide (x ≠ d) && m.all (fun e => decide (k < e.1)) && Store.wf d m

/-- The byte at a ROM address; an address not listed holds 0 (log 4). -/
def Memory.read (m : List Host.Cell) (a : Nat) : Byte := Store.read 0 m a

/-- The ROM with one byte replaced. The block never does this (R60); only the host places an image. -/
def Memory.write (m : List Host.Cell) (a : Nat) (b : Byte) : List Host.Cell := Store.write 0 m a b

/-- The ROM's canonical form. -/
def Memory.wf (m : List Host.Cell) : Bool := Store.wf 0 m

/-- The ROM contents of an image placed from address `a` on. -/
def Memory.ofBytes : Nat → List Byte → List Host.Cell
  | _, [] => []
  | a, b :: bs => if b = 0 then Memory.ofBytes (a + 1) bs else (a, b) :: Memory.ofBytes (a + 1) bs

/-! ### Reader primitives -/

/-- MemRead(a, 1), asked only for a < ROM_LEN (R60, R61). -/
def memRead (s : State) (a : Nat) : Byte := Memory.read s.rom a

/-- ReadByte (R62). -/
def readByte (s : State) : Byte × State :=
  if s.pos < s.romLen then (memRead s s.pos, { s with pos := s.pos + 1 })
  else (0, { s with eos := true })

/-- ReadWord: low byte first (R63). -/
def readWord (s : State) : Half × State :=
  let lo := readByte s
  let hi := readByte lo.2
  (hi.1 ++ lo.1, hi.2)

/-- Seek (R64). -/
def seek (off : Nat) (s : State) : State := { s with pos := off }

/-! ### Responses, fault entry, emission -/

/-- respond(CODE, DATA, CMDS) (R110). -/
def respond (code : RespCode) (data : Half) (cmds : List CmdWord) (s : State) : State :=
  { s with response := some ⟨code, data, cmds⟩ }

/-- The refusal of a request: CODE = ILLEGAL, DATA = 0, no other change (R214, R215, R246). -/
def respondIllegal (s : State) : State := respond .illegal 0 [] s

/-- respond(OK, STATUS, []), STATUS read in the state given (R110). -/
def respondStatus (s : State) : State := respond .ok s.status [] s

/-- The song state at its reset values (R131, R243). -/
def clearSong (s : State) : State := { s with song := Song.empty }

/-- The playback position and CURPAT at 0 (R153, R243). -/
def clearPosition (s : State) : State := { s with order := 0, row := 0, tickcnt := 0, curpat := 0 }

/-- The block is between requests again: the locals of the request are gone (log 17). -/
def endRequest (s : State) : State := { s with engine := .idle, vars := LoadVars.initial, chan := 0, cmds := [] }

/-- The state `raise Fault(code)` leaves (R243). POS, EOS and CTRL are kept. -/
def faultEntry (e : ErrCode) (s : State) : State :=
  respond .loadFailed (e.code.setWidth 16) []
    { endRequest (clearBoundaries (clearPosition (clearSong s))) with seq := .idle, err := e }

/-- `raise Fault(code)` inside LOAD: the LOAD ends by fault entry (R243). -/
def raiseFault (e : ErrCode) (s : State) : Result := .next (faultEntry e s)

/-- emit(cmd) (R181). -/
def emit (w : CmdWord) (s : State) : State := { s with cmds := s.cmds ++ [w] }

/-- One statement after another; a stop ends the sequence (R14). -/
def andThen (o : Result) (f : State → Result) : Result :=
  match o with
  | .next s => f s
  | .fault r => .fault r
  | .refused r => .refused r

end Sys2Proof.Machine
end

