-- ==== Sys2Proof/Machine/Operands.lean ====
section
/-! DEFINITION. Every operand form: register reads (spec/10_state.md, section 2), the modulo decoders of
spec/20_memory.md R70, the instrument lookup of R71, and the number assembly of R102. -/

namespace Sys2Proof.Machine

/-- The register a number names, zero-extended to 16 bits (R213; bits above the width read 0). -/
def readReg (s : State) : RegName → BitVec 16
  | .ctrl => (BitVec.ofBool s.loop).setWidth 16
  | .status => s.status
  | .speed => s.song.speed.setWidth 16
  | .order => s.order.setWidth 16
  | .row => s.row.setWidth 16
  | .tickcnt => s.tickcnt.setWidth 16
  | .songlen => s.song.songlen.setWidth 16
  | .curpat => s.curpat.setWidth 16

/-- An order entry taken modulo 32 (R33, R70). -/
def slotOf (e : Byte) : BitVec 5 := BitVec.ofNat 5 (e.toNat % 32)

/-- A channel selector taken modulo 9 (R100, R143). -/
def channelOf (chidx : BitVec 4) : Fin 9 := ⟨chidx.toNat % 9, Nat.mod_lt _ (by decide)⟩

/-- CellAddr (R70). -/
def cellAddr (s r c : Nat) : Nat := s % 32 * 576 + r % 64 * 9 + c % 9

/-- PROM[s][r][c] (R70). -/
def readCell (p : Song) (s r c : Nat) : CellWord := Store.read 0 p.prom (cellAddr s r c)

/-- PROM[s][r][c] <- v (R70). -/
def writeCell (p : Song) (s r c : Nat) (v : CellWord) : Song :=
  { p with prom := Store.write 0 p.prom (cellAddr s r c) v }

/-- POFS[s] (R34). -/
def patternOffset (p : Song) (s : BitVec 5) : Half := p.pofs[s.toNat]'(s.isLt)

/-- Slot s is allocated (R34, R141). -/
def isAllocated (p : Song) (s : BitVec 5) : Bool := patternOffset p s != 0

/-- The order entries of the song, ORDLIST[0..SONGLEN−1] (R69). -/
def orderEntries (p : Song) : List Byte := p.ordlist.toList.take p.songlen.toNat

/-- The IROM entry of instrument n, n in 1..31 (R35, R71). -/
def entryOf (n : BitVec 5) (h : n ≠ 0) : Fin 31 :=
  ⟨n.toNat - 1, by
    have hpos : n.toNat ≠ 0 := fun e => h (BitVec.eq_of_toNat_eq e)
    have := n.isLt
    omega⟩

/-- The eleven bytes of an IROM entry, byte k in bits 8k+7..8k (R66, R107, R182). -/
def instrumentData (p : Song) (e : Fin 31) : BitVec 88 :=
  let r := p.irom[e]
  r[10] ++ r[9] ++ r[8] ++ r[7] ++ r[6] ++ r[5] ++ r[4] ++ r[3] ++ r[2] ++ r[1] ++ r[0]

/-- INST = (NOTE0[7] << 4) + NOTE1[7:4] (R102). -/
def instrumentNumber (ihi : Bool) (ilo : BitVec 4) : BitVec 5 := BitVec.ofBool ihi ++ ilo

end Sys2Proof.Machine
end

