-- ==== Sys2Proof/Machine/Commands.lean ====
section
/-! DEFINITION. The four commands (spec/41_playback.md R182 to R185): each emits one command word (R181). -/

namespace Sys2Proof.Machine

/-- emit(SetInstrument(c, n)): the instrument ROM lookup (R182). -/
def emitSetInstrument (ch : BitVec 4) (n : BitVec 5) (s : State) : Result :=
  if h : n ≠ 0 then
    if isChannel ch then
      let e := entryOf n h
      .next (emit (setInstrumentWord ch s.song.iloaded[e] n (instrumentData s.song e)) s)
    else .refused .commandNeverEmitted
  else .refused .commandNeverEmitted

/-- emit(SetFrequency(c, o, t)) (R183). -/
def emitSetFrequency (ch : BitVec 4) (oct : BitVec 3) (note : BitVec 4) (s : State) : Result :=
  if isChannel ch && isPitch note then .next (emit (setFrequencyWord ch oct note) s)
  else .refused .commandNeverEmitted

/-- emit(KeyOn(c)) (R184). -/
def emitKeyOn (ch : BitVec 4) (s : State) : Result :=
  if isChannel ch then .next (emit (keyOnWord ch) s) else .refused .commandNeverEmitted

/-- emit(KeyOff(c)) (R185). -/
def emitKeyOff (ch : BitVec 4) (s : State) : Result :=
  if isChannel ch then .next (emit (keyOffWord ch) s) else .refused .commandNeverEmitted

/-- SetInstrument (R182). LOADED and DATA of the word are what the lookup gives, not operands (log 11). -/
def execSetInstrument (ch : BitVec 4) (_loaded : Bool) (inst : BitVec 5) (_data : BitVec 88) (s : State) : Result :=
  emitSetInstrument ch inst s

/-- SetFrequency (R183). -/
def execSetFrequency (ch : BitVec 4) (oct : BitVec 3) (note : BitVec 4) (s : State) : Result :=
  emitSetFrequency ch oct note s

/-- KeyOn (R184). -/
def execKeyOn (ch : BitVec 4) (s : State) : Result := emitKeyOn ch s

/-- KeyOff (R185). -/
def execKeyOff (ch : BitVec 4) (s : State) : Result := emitKeyOff ch s

end Sys2Proof.Machine
end

