-- ==== Sys2Proof/Machine/Cells.lean ====
section
/-! DEFINITION. ExecuteCell for each cell class (spec/41_playback.md R176 to R178), on the channel the running TICK
has reached. EFF and PARAM are read by none (R178). -/

namespace Sys2Proof.Machine

/-- The channel of the cell being executed (R174). -/
def cellChannel (s : State) : BitVec 4 := BitVec.ofNat 4 s.chan.val

/-- CELL_EMPTY: nothing (R178). -/
def execCellEmpty (_inst : BitVec 5) (_oct : BitVec 3) (_eff : BitVec 4) (_param : Byte) (s : State) : Result :=
  .next s

/-- CELL_KEYOFF: KeyOff whatever the other fields (R177). -/
def execCellKeyoff (_inst : BitVec 5) (_oct : BitVec 3) (_eff : BitVec 4) (_param : Byte) (s : State) : Result :=
  emitKeyOff (cellChannel s) s

/-- CELL_NOTE: SetFrequency, then KeyOn (R176). -/
def execCellNote (oct : BitVec 3) (note _eff : BitVec 4) (_param : Byte) (s : State) : Result :=
  andThen (emitSetFrequency (cellChannel s) oct note s) fun s1 => emitKeyOn (cellChannel s1) s1

/-- CELL_NOTE_INST: SetInstrument, then SetFrequency, then KeyOn (R176). -/
def execCellNoteInst (inst : BitVec 5) (oct : BitVec 3) (note _eff : BitVec 4) (_param : Byte) (s : State) : Result :=
  andThen (emitSetInstrument (cellChannel s) inst s) fun s1 =>
    andThen (emitSetFrequency (cellChannel s1) oct note s1) fun s2 => emitKeyOn (cellChannel s2) s2

end Sys2Proof.Machine
end

