-- ==== Sys2Proof/Machine/Tokens.lean ====
section
/-! DEFINITION. The module tokens (spec/40_load.md R133 to R148): what LOAD does with each token once its bytes have
been read. A token names the format LOAD reads next. Steps that read no token stand in LoadSteps.lean. -/

namespace Sys2Proof.Machine

/-- HDR (R133): bit 5 is ignored (R111). -/
def execHdr (desc slow _ignored : Bool) (speed : BitVec 5) (s : State) : Result :=
  .next { s with
    song := { s.song with slowTimer := slow, speed := speed }
    engine := .load (if desc then .desc else .islot) }

/-- DESC_BYTE: skipped (R134). -/
def execDescByte (_b : Byte) (s : State) : Result := .next { s with engine := .load .desc }

/-- DESC_END (R134). -/
def execDescEnd (s : State) : Result := .next { s with engine := .load .islot }

/-- The instrument table ends; the order list follows (R135, R138). -/
def endInstrumentTable (s : State) : State := { s with engine := .load .olen }

/-- ISLOT_END (R135). -/
def execIslotEnd (s : State) : Result := .next (endInstrumentTable s)

/-- ISLOT: the record of instrument n follows (R135, R137). No encoding holds n = 0 here; it would end the table as
the loop of R135 does (log 18). -/
def execIslot (n : BitVec 5) (s : State) : Result :=
  if h : n ≠ 0 then
    .next { s with vars := { s.vars with entry := entryOf n h, byteNo := 0 }, engine := .load .irec }
  else .next (endInstrumentTable s)

/-- ISLOT_BAD: refused before its record is read (R136). -/
def execIslotBad (_n : Byte) (s : State) : Result := raiseFault .malformedModule s

/-- IREC_BYTE: IROM[n−1][k] <- b; after k = 10 the instrument is loaded (R137). -/
def execIrecByte (b : Byte) (s : State) : Result :=
  let e := s.vars.entry
  let k := s.vars.byteNo
  let irom := s.song.irom.set e (s.song.irom[e].set k b)
  if h : k.val < 10 then
    .next { s with
      song := { s.song with irom := irom }
      vars := { s.vars with byteNo := ⟨k.val + 1, by omega⟩ }
      engine := .load .irec }
  else
    .next { s with
      song := { s.song with irom := irom, iloaded := s.song.iloaded.set e true }
      engine := .load .islot }

/-- The offset table is next, from slot 0 (R139). -/
def startOffsets (s : State) : State := { s with vars := { s.vars with slot := 0 }, engine := .load .pofs }

/-- OLEN: SONGLEN <- L; no entry follows L = 0 (R138). -/
def execOlen (l : Byte) (s : State) : Result :=
  let t := { s with song := { s.song with songlen := l }, vars := { s.vars with orderNo := 0 } }
  if l = 0 then .next (startOffsets t) else .next { t with engine := .load .oent }

/-- OENT: ORDLIST[i] <- e, as read (R138). -/
def execOent (e : Byte) (s : State) : Result :=
  let i := s.vars.orderNo
  let t := { s with song := { s.song with ordlist := s.song.ordlist.set i e } }
  if h : i.val + 1 < s.song.songlen.toNat then
    .next { t with
      vars := { t.vars with orderNo := ⟨i.val + 1, by have := s.song.songlen.isLt; omega⟩ }
      engine := .load .oent }
  else .next (startOffsets t)

/-- POFS[s] <- ofs, and the next word or the slot walk (R139, R140). -/
def storeOffset (ofs : Half) (s : State) : State :=
  let k := s.vars.slot
  let t := { s with song := { s.song with pofs := s.song.pofs.set k ofs } }
  if h : k.val < 31 then
    { t with vars := { t.vars with slot := ⟨k.val + 1, by omega⟩ }, engine := .load .pofs }
  else { t with vars := { t.vars with slot := 0 }, engine := .load .slot }

/-- POFS_UNUSED (R139, R141). -/
def execPofsUnused (s : State) : Result := .next (storeOffset 0 s)

/-- POFS (R139). -/
def execPofs (ofs : Half) (s : State) : Result := .next (storeOffset ofs s)

/-- The locals of a line; its first cell follows (R142, R143). -/
def startLine (last : Bool) (row : BitVec 6) (s : State) : State :=
  { s with vars := { s.vars with row := row, lineLast := last }, engine := .load .chan }

/-- LINE: bit 6 is ignored (R142, R111). -/
def execLine (_ignored : Bool) (row : BitVec 6) (s : State) : Result := .next (startLine false row s)

/-- LINE_LAST: the pattern ends after this line (R142, R148). -/
def execLineLast (_ignored : Bool) (row : BitVec 6) (s : State) : Result := .next (startLine true row s)

/-- The locals of a cell; its note pair follows (R143, R144). -/
def startCell (last : Bool) (chidx : BitVec 4) (s : State) : State :=
  { s with vars := { s.vars with chan := channelOf chidx, chanLast := last }, engine := .load .note }

/-- CHAN: bits 6:4 are ignored (R143, R111). -/
def execChan (_ignored : BitVec 3) (chidx : BitVec 4) (s : State) : Result := .next (startCell false chidx s)

/-- CHAN_LAST: the line ends after this cell (R143, R147). -/
def execChanLast (_ignored : BitVec 3) (chidx : BitVec 4) (s : State) : Result := .next (startCell true chidx s)

/-- The next pattern slot of the walk, or the validation after slot 31 (R140, R150). -/
def nextSlot (s : State) : State :=
  if h : s.vars.slot.val < 31 then
    { s with vars := { s.vars with slot := ⟨s.vars.slot.val + 1, by omega⟩ }, engine := .load .slot }
  else { s with engine := .load .validate }

/-- After a cell: the next cell of the line, the next line of the pattern, or the next slot (R147, R148). -/
def endCell (s : State) : State :=
  if s.vars.chanLast then
    if s.vars.lineLast then nextSlot s else { s with engine := .load .line }
  else { s with engine := .load .chan }

/-- WriteCell, all five fields together (R146). -/
def storeCell (inst : BitVec 5) (oct : BitVec 3) (note eff : BitVec 4) (param : Byte) (s : State) : State :=
  { s with song :=
      writeCell s.song s.vars.slot.val s.vars.row.toNat s.vars.chan.val (cellWord inst oct note eff param) }

/-- NOTE_NOPARAM: the cell has EFF = 0 and PARAM = 0, and no byte is consumed (R144, R145). -/
def execNoteNoparam (ihi : Bool) (oct : BitVec 3) (note ilo : BitVec 4) (s : State) : Result :=
  .next (endCell (storeCell (instrumentNumber ihi ilo) oct note 0 0 s))

/-- NOTE_PARAM: the parameter byte follows (R144, R145). -/
def execNoteParam (ihi : Bool) (oct : BitVec 3) (note ilo eff : BitVec 4) (s : State) : Result :=
  .next { s with
    vars := { s.vars with inst := instrumentNumber ihi ilo, oct := oct, note := note, eff := eff }
    engine := .load .param }

/-- PARAM: the cell is written with it (R145, R146). -/
def execParam (p : Byte) (s : State) : Result :=
  .next (endCell (storeCell s.vars.inst s.vars.oct s.vars.note s.vars.eff p s))

end Sys2Proof.Machine
end

