-- ==== Sys2Proof/Machine/LoadSteps.lean ====
section
/-! DEFINITION. The steps of LOAD that read no token: initialise and header check (spec/40_load.md R131, R132), the
slot walk (R140), the validation and the commit (R150 to R153). -/

namespace Sys2Proof.Machine

/-- Step 1: the song state, POS and EOS at their reset values (R131). -/
def initLoad (s : State) : State :=
  { clearSong s with pos := 0, eos := false, vars := LoadVars.initial, chan := 0, cmds := [] }

/-- The state at the first token of a LOAD: after step 1, the reader at the header byte (R131, R133). -/
def loadStart (s : State) : State := { seek 0x11 (initLoad s) with engine := .load .hdr }

/-- The slot walk at slot s: an unused slot is passed over; an offset at or past ROM_LEN is refused; else the reader
goes to the pattern (R140). -/
def slotStep (s : State) : Result :=
  let ofs := s.song.pofs[s.vars.slot]
  if ofs = 0 then .next (nextSlot s)
  else if s.romLen ≤ ofs.toNat then raiseFault .malformedModule s
  else .next { seek ofs.toNat s with engine := .load .line }

/-- Every order entry names an allocated slot (R152). -/
def ordersResolve (p : Song) : Bool := (orderEntries p).all fun e => isAllocated p (slotOf e)

/-- The pattern slot of order position 0 (R153, R31). -/
def firstPattern (p : Song) : BitVec 5 := slotOf p.ordlist[0]

/-- Step 9: the song is loaded and playback starts at position (0, 0, 0) (R153). -/
def commitLoad (s : State) : State :=
  respondStatus
    { endRequest (clearBoundaries (clearPosition s)) with
      curpat := firstPattern s.song, err := .none, seq := .playing }

/-- Step 8: speed, then order length, then order references (R150, R151, R152, R155). -/
def validateStep (s : State) : Result :=
  if s.song.speed = 0 then raiseFault .malformedModule s
  else if s.song.songlen = 0 then raiseFault .malformedModule s
  else if ordersResolve s.song then .next (commitLoad s)
  else raiseFault .malformedModule s

end Sys2Proof.Machine
end

