-- ==== Sys2Proof/Machine/TickSteps.lean ====
section
/-! DEFINITION. The statements of a PLAYING TICK around the cells: its start (spec/41_playback.md R173, R174), the
tick advance (R179), the row advance (R180) and the response (R181). -/

namespace Sys2Proof.Machine

/-- R173, and the condition of R174: the cells are executed when TICKCNT = 0. -/
def startTick (s : State) : State :=
  { clearBoundaries s with cmds := [], engine := if s.tickcnt = 0 then .cells 0 else .tickEnd }

/-- The order position after a row wrap, and whether the song ends there (R180). -/
def orderAdvance (s : State) : State :=
  if s.order.toNat + 1 < s.song.songlen.toNat then { s with order := BitVec.ofNat 8 (s.order.toNat + 1) }
  else if s.loop then { s with order := 0 }
  else { s with seq := .ended }

/-- CURPAT <- ORDLIST[ORDER] mod 32 (R180, R186). -/
def resolvePattern (s : State) : Result :=
  if h : s.order.toNat < 255 then .next { s with curpat := slotOf s.song.ordlist[s.order.toNat] }
  else .fault .orderOutsideList

/-- RowAdvance (R180). -/
def rowAdvance (s : State) : Result :=
  let row := BitVec.ofNat 6 ((s.row.toNat + 1) % 64)
  if row = 0 then resolvePattern (orderAdvance { s with row := row, orderBoundary := true })
  else .next { s with row := row }

/-- The tick advance (R179). -/
def tickAdvance (s : State) : Result :=
  if s.song.speed = 0 then .fault .speedZero
  else
    let tickcnt := BitVec.ofNat 5 ((s.tickcnt.toNat + 1) % s.song.speed.toNat)
    if tickcnt = 0 then rowAdvance { s with tickcnt := tickcnt, rowBoundary := true }
    else .next { s with tickcnt := tickcnt }

/-- The end of a PLAYING TICK: STATUS is read after all its writes, and the commands go out in emission order
(R181). -/
def finishTick (s : State) : Result :=
  andThen (tickAdvance s) fun t => .next (respond .ok t.status t.cmds (endRequest t))

end Sys2Proof.Machine
end

