-- ==== Sys2Proof/Machine/Fetch.lean ====
section
/-! DEFINITION. What the block does next: which word it takes, from where, and under which format it decodes it. A
LOAD takes tokens from the ROM through the reader (spec/40_load.md R133 to R149), a TICK takes cells from the pattern
ROM (spec/41_playback.md R174, R175), and between requests the host's next action is taken (spec/42_host.md R210). -/

namespace Sys2Proof.Machine

/-- What fetching answers: an instruction and the state to run it in, or what the step answers when it takes no
instruction. -/
inductive Fetched where
  | instr (i : Instr) (s : State)
  | settled (o : Result)

/-- CheckEOS after a read (R149). -/
def checkEos (s : State) (k : State → Fetched) : Fetched :=
  if s.eos then .settled (raiseFault .truncatedInput s) else k s

/-- `b <- ReadByte(); CheckEOS()`, then the token `d b` (R149). -/
def byteToken (d : Byte → Instr) (s : State) : Fetched :=
  let r := readByte s
  checkEos r.2 fun t => .instr (d r.1) t

/-- `w <- ReadWord(); CheckEOS()`, then the token `d w` (R139, R149). -/
def wordToken (d : Half → Instr) (s : State) : Fetched :=
  let r := readWord s
  checkEos r.2 fun t => .instr (d r.1) t

/-- NOTE0 and NOTE1, each read and checked (R144). -/
def noteToken (s : State) : Fetched :=
  let r0 := readByte s
  checkEos r0.2 fun t =>
    let r1 := readByte t
    checkEos r1.2 fun u => .instr (decodeNote (r0.1 ++ r1.1)) u

/-- The next token of LOAD, or its next step that reads none. The header byte alone is read without CheckEOS
(R133). -/
def loadFetch (s : State) : Phase → Fetched
  | .hdr => let r := readByte s; .instr (decodeHdr r.1) r.2
  | .desc => byteToken decodeDesc s
  | .islot => byteToken decodeIslot s
  | .irec => byteToken .irecByte s
  | .olen => byteToken .olen s
  | .oent => byteToken .oent s
  | .pofs => wordToken decodePofs s
  | .slot => .settled (slotStep s)
  | .line => byteToken decodeLine s
  | .chan => byteToken decodeChan s
  | .note => noteToken s
  | .param => byteToken .param s
  | .validate => .settled (validateStep s)

/-- After the cell of channel c: that of c + 1, or the tick advance (R174). -/
def afterCell (c : Fin 9) : Engine := if h : c.val < 8 then .cells ⟨c.val + 1, by omega⟩ else .tickEnd

/-- The cell of channel c, PROM[CURPAT][ROW][c] (R175). -/
def cellFetch (s : State) (c : Fin 9) : Fetched :=
  .instr (decodeCell (readCell s.song s.curpat.toNat s.row.toNat c.val)) { s with chan := c, engine := afterCell c }

/-- A command word at the point of its emission (R181; log 2). -/
def emitFetch (s : State) (w : CmdWord) : Fetched :=
  match decodeCmd w with
  | .instr i => .instr i { s with engine := .tickEnd }
  | .rejected _ => .settled (.refused .commandNeverEmitted)

/-- The host puts an image into the module ROM (R216, R272); ROM_LEN is at most 2^ROM_ADDR_W (R10). ROM_ADDR_W is at
least 16, so the first test is implied by the second (log 5). -/
def placeImage (bytes : List Byte) (s : State) : Result :=
  if bytes.length ≤ 65536 || decide (bytes.length ≤ 2 ^ Config.romAddrW) then
    .next { s with rom := Memory.ofBytes 0 bytes, romLen := bytes.length }
  else .refused .imageTooLong

/-- Between requests the host's next action is taken; with none the block holds its state (R16, R253; log 1). -/
def hostFetch (s : State) : Fetched :=
  match s.host with
  | [] => .settled (.next s)
  | .request w :: rest => .instr (decodeReq w) { s with host := rest }
  | .image bytes :: rest => .settled (placeImage bytes { s with host := rest })

/-- What the block does next. -/
def fetch (s : State) : Fetched :=
  match s.engine with
  | .idle => hostFetch s
  | .load p => loadFetch s p
  | .cells c => cellFetch s c
  | .tickEnd => .settled (finishTick s)
  | .emit w => emitFetch s w

end Sys2Proof.Machine
end

