-- ==== Sys2Proof/Machine/Requests.lean ====
section
/-! DEFINITION. The host's requests (spec/42_host.md R211 to R215, spec/40_load.md R130, spec/41_playback.md R170).
LOAD and TICK run the instructions inside them to the end, as one atomic step (spec/00_scope.md R14). -/

namespace Sys2Proof.Machine

/-- The meaning of an instruction met inside a request. No request can stand there (R210, I8). -/
def runInner (i : Instr) (s : State) : Result :=
  match i with
  | .reset | .load | .tick | .wrctrl _ | .rdreg _ | .rdregReservedReg _ | .reservedOp5 _ | .reservedOp6 _
  | .reservedOp7 _ | .reservedOp8F _ _ | .illegalOperand _ _ => .refused .overlappingRequest
  | .hdr d sl ig sp => execHdr d sl ig sp s
  | .descByte b => execDescByte b s
  | .descEnd => execDescEnd s
  | .islotEnd => execIslotEnd s
  | .islot n => execIslot n s
  | .islotBad n => execIslotBad n s
  | .irecByte b => execIrecByte b s
  | .olen l => execOlen l s
  | .oent e => execOent e s
  | .pofsUnused => execPofsUnused s
  | .pofs ofs => execPofs ofs s
  | .line ig row => execLine ig row s
  | .lineLast ig row => execLineLast ig row s
  | .chan ig c => execChan ig c s
  | .chanLast ig c => execChanLast ig c s
  | .noteNoparam ihi oct note ilo => execNoteNoparam ihi oct note ilo s
  | .noteParam ihi oct note ilo eff => execNoteParam ihi oct note ilo eff s
  | .param p => execParam p s
  | .cellEmpty inst oct eff p => execCellEmpty inst oct eff p s
  | .cellKeyoff inst oct eff p => execCellKeyoff inst oct eff p s
  | .cellNote oct note eff p => execCellNote oct note eff p s
  | .cellNoteInst inst oct note eff p => execCellNoteInst inst oct note eff p s
  | .setInstrument ch l inst data => execSetInstrument ch l inst data s
  | .setFrequency ch oct note => execSetFrequency ch oct note s
  | .keyOn ch => execKeyOn ch s
  | .keyOff ch => execKeyOff ch s

/-- One instruction, or one step without an instruction, inside a request. -/
def innerStep (s : State) : Result :=
  match fetch s with
  | .instr i t => runInner i t
  | .settled o => o

/-- A request run to its end, in at most `fuel` inner steps. -/
def runRequest : Nat → State → Result
  | 0, _ => .fault .requestUnfinished
  | fuel + 1, s =>
    if s.engine = .idle then .next s
    else
      match innerStep s with
      | .next t => runRequest fuel t
      | .fault r => .fault r
      | .refused r => .refused r

/-- More inner steps than a LOAD takes: each of the at most 33 passes over the image reads a byte a step (R156;
log 8). -/
def loadFuel (s : State) : Nat := 33 * (s.romLen + 4)

/-- More inner steps than a TICK takes: nine cells, the advance, and the end (R174, R179). -/
def tickFuel : Nat := 11

/-- RESET: every piece of the block's state at its reset value (R211, R42). The ROM and the host's own actions are
not state of the block (log 3). -/
def execReset (s : State) : Result :=
  .next (respondStatus { State.reset with rom := s.rom, romLen := s.romLen, host := s.host })

/-- LOAD (R130, R158): an image shorter than the header region is refused (R132). -/
def execLoad (s : State) : Result :=
  if s.romLen < 18 then raiseFault .malformedModule (initLoad s)
  else runRequest (loadFuel s) (loadStart s)

/-- TICK (R170, R188): nothing in IDLE (R171) and ENDED (R172). -/
def execTick (s : State) : Result :=
  match s.seq with
  | .idle => .next (respondStatus s)
  | .ended => .next (respondStatus s)
  | .playing => runRequest tickFuel (startTick s)

/-- WRCTRL: LOOP <- operand[0] (R212). -/
def execWrctrl (l : Bool) (s : State) : Result := .next (respondStatus { s with loop := l })

/-- RDREG of an existing register; no side effect (R213). -/
def execRdreg (r : RegName) (s : State) : Result := .next (respond .ok (readReg s r) [] s)

/-- RDREG of a register 8..15: refused (R213, R32). -/
def execRdregReservedReg (_r : BitVec 4) (s : State) : Result := .next (respondIllegal s)

/-- Reserved OP 0x5: refused (R214). -/
def execReservedOp5 (_operand : BitVec 12) (s : State) : Result := .next (respondIllegal s)

/-- Reserved OP 0x6: refused (R214). -/
def execReservedOp6 (_operand : BitVec 12) (s : State) : Result := .next (respondIllegal s)

/-- Reserved OP 0x7: refused (R214). -/
def execReservedOp7 (_operand : BitVec 12) (s : State) : Result := .next (respondIllegal s)

/-- Reserved OP 0x8..0xF: refused (R214). -/
def execReservedOp8F (_op : BitVec 4) (_operand : BitVec 12) (s : State) : Result := .next (respondIllegal s)

/-- A reserved operand bit set: refused before any other effect (R215). -/
def execIllegalOperand (_op : BitVec 4) (_operand : BitVec 12) (s : State) : Result := .next (respondIllegal s)

end Sys2Proof.Machine
end

