-- ==== Sys2Proof/Machine/Dispatch.lean ====
section
/-! DEFINITION. One arm per instruction. -/

namespace Sys2Proof.Machine

def exec (i : Instr) (s : State) : Host.Outcome State Fault Refusal :=
  match i with
  -- requests (spec/30_encoding.md R109)
  | .reset => Sys2Proof.Machine.execReset s
  | .load => Sys2Proof.Machine.execLoad s
  | .tick => Sys2Proof.Machine.execTick s
  | .wrctrl l => Sys2Proof.Machine.execWrctrl l s
  | .rdreg r => Sys2Proof.Machine.execRdreg r s
  | .rdregReservedReg r => Sys2Proof.Machine.execRdregReservedReg r s
  | .reservedOp5 operand => Sys2Proof.Machine.execReservedOp5 operand s
  | .reservedOp6 operand => Sys2Proof.Machine.execReservedOp6 operand s
  | .reservedOp7 operand => Sys2Proof.Machine.execReservedOp7 operand s
  | .reservedOp8F op operand => Sys2Proof.Machine.execReservedOp8F op operand s
  | .illegalOperand op operand => Sys2Proof.Machine.execIllegalOperand op operand s
  -- module tokens (R92 to R103)
  | .hdr d sl ig sp => Sys2Proof.Machine.execHdr d sl ig sp s
  | .descByte b => Sys2Proof.Machine.execDescByte b s
  | .descEnd => Sys2Proof.Machine.execDescEnd s
  | .islotEnd => Sys2Proof.Machine.execIslotEnd s
  | .islot n => Sys2Proof.Machine.execIslot n s
  | .islotBad n => Sys2Proof.Machine.execIslotBad n s
  | .irecByte b => Sys2Proof.Machine.execIrecByte b s
  | .olen l => Sys2Proof.Machine.execOlen l s
  | .oent e => Sys2Proof.Machine.execOent e s
  | .pofsUnused => Sys2Proof.Machine.execPofsUnused s
  | .pofs ofs => Sys2Proof.Machine.execPofs ofs s
  | .line ig row => Sys2Proof.Machine.execLine ig row s
  | .lineLast ig row => Sys2Proof.Machine.execLineLast ig row s
  | .chan ig c => Sys2Proof.Machine.execChan ig c s
  | .chanLast ig c => Sys2Proof.Machine.execChanLast ig c s
  | .noteNoparam ihi oct note ilo => Sys2Proof.Machine.execNoteNoparam ihi oct note ilo s
  | .noteParam ihi oct note ilo eff => Sys2Proof.Machine.execNoteParam ihi oct note ilo eff s
  | .param p => Sys2Proof.Machine.execParam p s
  -- cell classes (R104)
  | .cellEmpty inst oct eff p => Sys2Proof.Machine.execCellEmpty inst oct eff p s
  | .cellKeyoff inst oct eff p => Sys2Proof.Machine.execCellKeyoff inst oct eff p s
  | .cellNote oct note eff p => Sys2Proof.Machine.execCellNote oct note eff p s
  | .cellNoteInst inst oct note eff p => Sys2Proof.Machine.execCellNoteInst inst oct note eff p s
  -- commands (R106)
  | .setInstrument ch l inst data => Sys2Proof.Machine.execSetInstrument ch l inst data s
  | .setFrequency ch oct note => Sys2Proof.Machine.execSetFrequency ch oct note s
  | .keyOn ch => Sys2Proof.Machine.execKeyOn ch s
  | .keyOff ch => Sys2Proof.Machine.execKeyOff ch s

end Sys2Proof.Machine
end

