-- ==== Sys2Proof/Machine/Step.lean ====
section
/-! DEFINITION. One step, and how a table word is put where the next step takes its instruction. -/

namespace Sys2Proof.Machine

/-- One step: between requests, one action of the host, a request being one atomic step (spec/00_scope.md R14,
spec/42_host.md R210); from a position inside a request, the one instruction that stands there (log 2). -/
def step (s : State) : Host.Outcome State Fault Refusal :=
  match fetch s with
  | .instr i t => exec i t
  | .settled o => o

/-- The state with a table word standing where the next step takes its instruction, under the format
`formatOfWidth` gives the width (logs 13, 14): an instrument slot byte at POS, with the load engine about to read
one; a request as the host's next action; the cell of the current channel; a command about to be emitted. -/
def State.withFetchWord (s : State) (nbits w : Nat) : State :=
  if nbits = 8 then
    { s with
      rom := Memory.write s.rom s.pos (BitVec.ofNat 8 w), romLen := max s.romLen (s.pos + 1), eos := false
      engine := .load .islot }
  else if nbits = 16 then { s with engine := .idle, host := .request (BitVec.ofNat 16 w) :: s.host }
  else if nbits = 24 then
    { s with
      song := writeCell s.song s.curpat.toNat s.row.toNat s.chan.val (BitVec.ofNat 24 w)
      engine := .cells s.chan }
  else if nbits = 104 then { s with engine := .emit (BitVec.ofNat 104 w) }
  else s

end Sys2Proof.Machine
end

