-- ==== Sys2Proof/Machine/HostSide.lean ====
section
/-! DEFINITION. What the host computes from what the block exports: the tick period and the wait (spec/42_host.md
R217), musical time (spec/70_reset_and_hazards.md R279) and the end of a song (R218). No rule of the block reads any
of it. -/

namespace Sys2Proof.Machine

/-- The tick period for STATUS.SLOW_TIMER (R217, R10). -/
def tickPeriod (s : State) : Nat := if s.song.slowTimer then Config.tickPeriodSlow else Config.tickPeriodNormal

/-- The wait before the next TICK, max(0, period − elapsed) (R217). -/
def tickWait (s : State) (elapsed : Nat) : Nat := tickPeriod s - elapsed

/-- The time of a row: SPEED tick periods (R279). -/
def rowTime (s : State) : Nat := s.song.speed.toNat * tickPeriod s

/-- The time of a full pass through the song: SPEED*64*SONGLEN tick periods (R279). -/
def passTime (s : State) : Nat := s.song.speed.toNat * 64 * s.song.songlen.toNat * tickPeriod s

/-- A response word whose STATE field is ENDED: the song has ended (R218, R276). -/
def showsEnded (data : Half) : Bool := data.extractLsb 1 0 == 2

end Sys2Proof.Machine
end

