-- ==== Sys2Proof/Machine/Script.lean ====
section
/-! DEFINITION. The module assembly and host script notations of spec/30_encoding.md R116 to R118, as abstract syntax:
what bytes and what request words a text in them stands for. No rule of the block depends on them (D38). -/

namespace Sys2Proof.Machine

/-- A line of module assembly (R117). -/
inductive ModuleItem where
  | org (a : Nat)
  | db (bytes : List Byte)
  | dw (words : List Half)
  | line (row : BitVec 6) (last : Bool)
  | cell (ch note : BitVec 4) (oct : BitVec 3) (inst : BitVec 5) (eff : BitVec 4) (param : Byte) (last : Bool)
  deriving DecidableEq, Repr

/-- The tokens of a `cell` line: CHAN, the note pair and, when the effect id is not 0, PARAM (R117). -/
def cellTokens (ch note : BitVec 4) (oct : BitVec 3) (inst : BitVec 5) (eff : BitVec 4) (param : Byte)
    (last : Bool) : List Instr :=
  let ihi := inst.getLsbD 4
  let ilo := inst.extractLsb 3 0
  (if last then .chanLast 0 ch else .chan 0 ch) ::
    (if eff = 0 then [.noteNoparam ihi oct note ilo] else [.noteParam ihi oct note ilo eff, .param param])

/-- The bytes of module tokens, in image order. -/
def tokenBytes (is : List Instr) : List Byte := is.flatMap fun i => (encode i).imageBytes

/-- The bytes a line places; `none` for `org`, which only moves. -/
def ModuleItem.bytes : ModuleItem → List Byte
  | .org _ => []
  | .db bs => bs
  | .dw ws => ws.flatMap fun w => [w.extractLsb 7 0, w.extractLsb 15 8]
  | .line row last => tokenBytes [if last then .lineLast false row else .line false row]
  | .cell ch note oct inst eff param last => tokenBytes (cellTokens ch note oct inst eff param last)

/-- Bytes placed from an address on, over contents and a length. DESIGN CHOICE: a byte placed where one already stands
replaces it (log 26). -/
def placeBytes : List Byte → Nat → List Host.Cell → Nat → List Host.Cell × Nat
  | [], _, m, len => (m, len)
  | b :: bs, a, m, len => placeBytes bs (a + 1) (Memory.write m a b) (max len (a + 1))

/-- The contents and length a module text builds up from an address (R117). -/
def assembleFrom : List ModuleItem → Nat → List Host.Cell → Nat → List Host.Cell × Nat
  | [], _, m, len => (m, len)
  | .org a :: rest, _, m, len => assembleFrom rest a m len
  | item :: rest, a, m, len =>
    let r := placeBytes item.bytes a m len
    assembleFrom rest (a + item.bytes.length) r.1 r.2

/-- The image of a module text. DESIGN CHOICE: bytes no line places are 0 (log 22), and a text that places bytes before
its first `org` places them from address 0 on (log 26). -/
def assemble (items : List ModuleItem) : List Byte :=
  let r := assembleFrom items 0 [] 0
  (List.range r.2).map fun a => Memory.read r.1 a

/-- A line of a host script, the pseudo-instructions among them (R116, R118). -/
inductive ScriptLine where
  | reset | load | tick
  | wrctrl (loop : Bool)
  | rdreg (reg : RegName)
  | ticks (k : Nat)
  | row
  | playall
  deriving DecidableEq, Repr

/-- The request word of an instruction (R109). -/
def requestWord (i : Instr) : ReqWord := BitVec.ofNat 16 (encode i).bits

/-- The request words of a script line, for the SPEED and SONGLEN of the loaded song (R116, R118). -/
def ScriptLine.words (speed : BitVec 5) (songlen : BitVec 8) : ScriptLine → List ReqWord
  | .reset => [requestWord .reset]
  | .load => [requestWord .load]
  | .tick => [requestWord .tick]
  | .wrctrl l => [requestWord (.wrctrl l)]
  | .rdreg r => [requestWord (.rdreg r)]
  | .ticks k => List.replicate k (requestWord .tick)
  | .row => List.replicate speed.toNat (requestWord .tick)
  | .playall => List.replicate (speed.toNat * 64 * songlen.toNat) (requestWord .tick)

end Sys2Proof.Machine
end

