-- ==== Sys2Proof/Safety.lean ====
section
/-! DEFINITION. What counts as a good state of RADSEQ, in the terms claims use: the invariants of spec/10_state.md R39
and what goes with them, and runs of TICK requests. -/

namespace Sys2Proof.Machine

/-- No request is running (R210): the fields a request works with hold nothing (log 17). -/
abbrev State.BetweenRequests (s : State) : Prop :=
  s.engine = .idle ∧ s.vars = LoadVars.initial ∧ s.chan = 0 ∧ s.cmds = []

/-- The song part of R39: a speed, an order list, and every order entry naming an allocated slot. -/
abbrev Song.Playable (p : Song) : Prop :=
  1 ≤ p.speed.toNat ∧ 1 ≤ p.songlen.toNat ∧ ∀ e ∈ orderEntries p, isAllocated p (slotOf e) = true

/-- The position part of R39: ORDER < SONGLEN, TICKCNT < SPEED, CURPAT = ORDLIST[ORDER] mod 32. -/
abbrev State.PositionInSong (s : State) : Prop :=
  s.order.toNat < s.song.songlen.toNat ∧ s.tickcnt.toNat < s.song.speed.toNat ∧
    s.song.ordlist[s.order.toNat]?.map slotOf = some s.curpat

/-- R39, by STATE. -/
abbrev State.SongConsistent (s : State) : Prop :=
  match s.seq with
  | .idle =>
    s.song = Song.empty ∧ s.order = 0 ∧ s.row = 0 ∧ s.tickcnt = 0 ∧ s.curpat = 0 ∧
      s.rowBoundary = false ∧ s.orderBoundary = false
  | .playing => s.song.Playable ∧ s.PositionInSong
  | .ended =>
    s.song.Playable ∧ s.PositionInSong ∧ s.row = 0 ∧ s.tickcnt = 0 ∧
      s.order.toNat + 1 = s.song.songlen.toNat ∧ s.rowBoundary = true ∧ s.orderBoundary = true

/-- The stores are in canonical form and inside their address ranges (R60, R70, R10), and POS fits its width (R38). -/
abbrev State.StoresCanonical (s : State) : Prop :=
  Memory.wf s.rom = true ∧ (∀ e ∈ s.rom, e.1 < s.romLen) ∧ s.romLen ≤ 2 ^ Config.romAddrW ∧
    Store.wf 0 s.song.prom = true ∧ (∀ e ∈ s.song.prom, e.1 < 32 * 576) ∧ s.pos ≤ 2 ^ Config.romAddrW

/-- ERR: code 3 is never held (R244); EOS is 1 exactly when ERR is TRUNCATED_INPUT (R27); a loaded song means the
last LOAD succeeded (R24). -/
abbrev State.ErrConsistent (s : State) : Prop :=
  s.err ≠ .unsupportedFeature ∧ (s.eos = true ↔ s.err = .truncatedInput) ∧ (s.seq ≠ .idle → s.err = .none)

/-- The invariant of the block between requests. -/
abbrev State.Inv (s : State) : Prop :=
  s.BetweenRequests ∧ s.SongConsistent ∧ s.StoresCanonical ∧ s.ErrConsistent

/-- The parts of the stores the module did not define hold their reset values: order entries from SONGLEN on (R33),
instruments with ILOADED = 0 (R35), the grid of an unused slot (R141). -/
abbrev Song.UndefinedPartsEmpty (p : Song) : Prop :=
  (∀ i : Fin 255, p.songlen.toNat ≤ i.val → p.ordlist[i] = 0) ∧
    (∀ e : Fin 31, p.iloaded[e] = false → p.irom[e] = Vector.replicate 11 0) ∧
    (∀ c ∈ p.prom, isAllocated p (BitVec.ofNat 5 (c.1 / 576)) = true)

/-- `k` consecutive TICK requests. -/
def ticks : Nat → State → Result
  | 0, s => .next s
  | k + 1, s => andThen (exec .tick s) (ticks k)

/-! ### Spec-side readings, as numbers, of what the machine computes with bit vectors -/

/-- 1 for a set bit. -/
abbrev bit (b : Bool) : Nat := if b then 1 else 0

/-- STATE as the table of R22 numbers it, written apart from the machine's own `SeqState.code`. -/
def seqNumber : SeqState → Nat
  | .idle => 0
  | .playing => 1
  | .ended => 2

/-- ERR as R24 and R240 number it, written apart from the machine's own `ErrCode.code`. -/
def errNumber : ErrCode → Nat
  | .none => 0
  | .truncatedInput => 1
  | .malformedModule => 2
  | .unsupportedFeature => 3

/-- The STATUS word by the table of R22, as a sum of its fields. -/
def statusNumber (s : State) : Nat :=
  seqNumber s.seq + 4 * errNumber s.err + 32 * bit s.rowBoundary + 64 * bit s.orderBoundary
    + 128 * bit s.song.slowTimer + 256 * bit s.eos

/-- The registers by number, spec/10_state.md section 2. -/
def registerNumber (s : State) : Nat → Nat
  | 0 => bit s.loop
  | 1 => statusNumber s
  | 2 => s.song.speed.toNat
  | 3 => s.order.toNat
  | 4 => s.row.toNat
  | 5 => s.tickcnt.toNat
  | 6 => s.song.songlen.toNat
  | 7 => s.curpat.toNat
  | _ => 0

/-- The format of the token LOAD reads in a phase; none where it reads no token. -/
def Phase.format : Phase → Option Format
  | .hdr => some .hdr
  | .desc => some .desc
  | .islot => some .islot
  | .irec => some .irec
  | .olen => some .olen
  | .oent => some .oent
  | .pofs => some .pofs
  | .line => some .line
  | .chan => some .chan
  | .note => some .note
  | .param => some .param
  | .slot | .validate => none

/-- The bytes a token of the format takes in the image. -/
def tokenLength (f : Format) : Nat := f.width / 8

/-- The token word at POS: an offset word low byte first (R63), a note pair NOTE0 first (R101). -/
def imageWord (s : State) (f : Format) : Nat :=
  let b0 := (Memory.read s.rom s.pos).toNat
  let b1 := (Memory.read s.rom (s.pos + 1)).toNat
  if f = .pofs then b0 + 256 * b1 else if f = .note then 256 * b0 + b1 else b0

/-- The module ROM holds these bytes from an address on, all inside it. -/
abbrev RomHolds (s : State) (a : Nat) (bytes : List Byte) : Prop :=
  a + bytes.length ≤ s.romLen ∧ ∀ k : Fin bytes.length, Memory.read s.rom (a + k.val) = bytes[k]

/-- The eleven bytes of an IROM entry as one number, byte k weighing 256^k (R66). -/
def instrumentNumberOf (r : Vector Byte 11) : Nat := r.toList.foldr (fun b acc => b.toNat + 256 * acc) 0

/-- The SetInstrument word by the table of R108 and R107: n in 1..31. -/
def setInstrumentNumber (p : Song) (c n : Nat) (h : n - 1 < 31) : Nat :=
  n + 32 * bit p.iloaded[n - 1] + 1024 * c + 65536 * instrumentNumberOf p.irom[n - 1]

/-- The commands a cell asks for, by R104, R176 to R178 and the header table of R108. -/
def cellCommands (p : Song) (c : Nat) (w : CellWord) : List Nat :=
  let inst := w.toNat / 2 ^ 19
  let oct := w.toNat / 2 ^ 16 % 8
  let note := w.toNat / 2 ^ 12 % 16
  if note = 0 then []
  else if note = 15 then [0xC000 + 1024 * c]
  else
    (if h : inst ≠ 0 ∧ inst - 1 < 31 then [setInstrumentNumber p c inst h.2] else []) ++
      [0x4000 + 1024 * c + 16 * oct + note, 0x8000 + 1024 * c]

/-- The commands of a row of a pattern slot, channels ascending (R174). -/
def rowCommands (p : Song) (slot row : Nat) : List Nat :=
  (List.range 9).flatMap fun c => cellCommands p c (readCell p slot row c)

/-- An answer with the state's field changed, the stops kept. -/
def mapNext (f : State → State) (o : Result) : Result := andThen o fun t => .next (f t)

end Sys2Proof.Machine
end

