-- ==== Sys2Proof/Certificates/Slice0/Obligations.lean ====
section
/-! DEFINITION. The statements about RADSEQ, from the numbered rules of spec/. Each docstring names the rules. An
equation `exec i s = .next { s with … }` says the result, that the instruction completes, and its frame at once: what
is not named is unchanged, every byte and cell of memory included. -/

open Sys2Proof Sys2Proof.Machine

/-! ### Reset and requests -/

/-- R42: after reset every register reads 0, every store entry is 0, every cell is empty; the RESET request leaves
the same, its response apart. That RESET does not touch the ROM, ROM_LEN and the host's list (log 3) and that the
model's own fields take the values of log 24 is the model's choice. -/
def Obligations.ResetStateHoldsTableValues : Prop :=
  (∀ r : RegName, readReg State.reset r = 0) ∧ State.reset.loop = false ∧ State.reset.seq = .idle ∧
    State.reset.err = .none ∧ State.reset.rowBoundary = false ∧ State.reset.orderBoundary = false ∧
    State.reset.song.slowTimer = false ∧ State.reset.eos = false ∧ State.reset.pos = 0 ∧
    (∀ i : Fin 255, State.reset.song.ordlist[i] = 0) ∧ (∀ i : Fin 32, State.reset.song.pofs[i] = 0) ∧
    (∀ (e : Fin 31) (k : Fin 11), State.reset.song.irom[e][k] = 0) ∧
    (∀ e : Fin 31, State.reset.song.iloaded[e] = false) ∧
    (∀ s r c : Nat, readCell State.reset.song s r c = 0) ∧
    (∀ s t : State, exec .reset s = .next t →
      t = { State.reset with rom := s.rom, romLen := s.romLen, host := s.host, response := t.response })

/-- The invariants of R39 and the stores' form hold at reset, with the model's own fields at the values of log 24. -/
def Obligations.ResetStateMeetsInvariant : Prop :=
  State.reset.Inv ∧ State.reset.song.UndefinedPartsEmpty

/-- R211: RESET, the word 0x0000, puts every piece of the block's state at its reset value, in every state, and
answers OK with DATA = 0x0000. That the ROM, ROM_LEN and the host's list are kept (log 3) and that the model's own
fields take the values of log 24 is the model's choice. -/
def Obligations.ResetRequestRestoresResetState : Prop :=
  ∀ (s : State) (w : ReqWord), w.toNat = 0 →
    decodeReq w = .reset ∧ exec .reset s =
      .next { State.reset with
        rom := s.rom, romLen := s.romLen, host := s.host, response := some ⟨.ok, 0x0000, []⟩ }

/-- R22: the STATUS word is the sum of its fields at the places of the table; bits 15:9 are 0. -/
def Obligations.StatusWordLayout : Prop :=
  ∀ s : State, s.status.toNat = statusNumber s ∧ s.status.toNat < 512

/-- R212: WRCTRL writes LOOP from operand bit 0 and answers OK with STATUS; with any of operand[11:1] set it is
refused and writes nothing. -/
def Obligations.WrctrlWritesOnlyLoop : Prop :=
  ∀ s : State,
    (∀ l : Bool, exec (.wrctrl l) s =
      .next { s with loop := l, response := some ⟨.ok, BitVec.ofNat 16 (statusNumber s), []⟩ }) ∧
    (∀ w : ReqWord, w.toNat / 4096 = 3 →
      exec (decodeReq w) s =
        if w.toNat % 4096 < 2 then
          .next { s with
            loop := decide (w.toNat % 2 = 1), response := some ⟨.ok, BitVec.ofNat 16 (statusNumber s), []⟩ }
        else .next { s with response := some ⟨.illegal, 0, []⟩ })

/-- R213: RDREG answers the register's value zero-extended and writes nothing; a register number 8..15 or any of
operand[11:4] set is refused. -/
def Obligations.RdregReadsNamedRegister : Prop :=
  ∀ s : State,
    (∀ r : RegName, exec (.rdreg r) s =
      .next { s with response := some ⟨.ok, BitVec.ofNat 16 (registerNumber s r.number.toNat), []⟩ }) ∧
    (∀ r : BitVec 4, exec (.rdregReservedReg r) s = .next { s with response := some ⟨.illegal, 0, []⟩ }) ∧
    (∀ w : ReqWord, w.toNat / 4096 = 4 →
      exec (decodeReq w) s =
        if w.toNat % 4096 < 8 then
          .next { s with response := some ⟨.ok, BitVec.ofNat 16 (registerNumber s (w.toNat % 4096)), []⟩ }
        else .next { s with response := some ⟨.illegal, 0, []⟩ })

/-- R214: a request of OP 0x5..0xF answers ILLEGAL with DATA 0 and changes no state. -/
def Obligations.ReservedRequestsRefused : Prop :=
  ∀ s : State,
    (∀ w : ReqWord, 5 ≤ w.toNat / 4096 →
      exec (decodeReq w) s = .next { s with response := some ⟨.illegal, 0, []⟩ }) ∧
    (∀ o : BitVec 12, exec (.reservedOp5 o) s = .next { s with response := some ⟨.illegal, 0, []⟩ }) ∧
    (∀ o : BitVec 12, exec (.reservedOp6 o) s = .next { s with response := some ⟨.illegal, 0, []⟩ }) ∧
    (∀ o : BitVec 12, exec (.reservedOp7 o) s = .next { s with response := some ⟨.illegal, 0, []⟩ }) ∧
    (∀ (p : BitVec 4) (o : BitVec 12),
      exec (.reservedOp8F p o) s = .next { s with response := some ⟨.illegal, 0, []⟩ })

/-- R215: a RESET, LOAD or TICK with a nonzero operand, a WRCTRL with operand[11:1] and an RDREG with operand[11:4]
not zero are refused exactly as R214 says, before any other effect. -/
def Obligations.NonzeroReservedOperandRefused : Prop :=
  ∀ s : State,
    (∀ w : ReqWord,
      (w.toNat / 4096 ≤ 2 ∧ w.toNat % 4096 ≠ 0) ∨ (w.toNat / 4096 = 3 ∧ 2 ≤ w.toNat % 4096) ∨
        (w.toNat / 4096 = 4 ∧ 16 ≤ w.toNat % 4096) →
      exec (decodeReq w) s = .next { s with response := some ⟨.illegal, 0, []⟩ }) ∧
    (∀ (p : BitVec 4) (o : BitVec 12),
      exec (.illegalOperand p o) s = .next { s with response := some ⟨.illegal, 0, []⟩ })

/-- R43: what each request may write. RDREG and refused requests write nothing, WRCTRL only LOOP, TICK only the
position, CURPAT, STATE and the boundary flags and that only in PLAYING, LOAD not CTRL, RESET everything. The model's
own choices here: RESET and LOAD keep the ROM, ROM_LEN and the host's list (log 3), and the working fields are cleared
at the end of a PLAYING TICK (log 17). -/
def Obligations.RequestsWriteOnlyTheirState : Prop :=
  ∀ s t : State,
    (exec .reset s = .next t →
      t = { State.reset with rom := s.rom, romLen := s.romLen, host := s.host, response := t.response }) ∧
    (exec .load s = .next t → t.loop = s.loop ∧ t.rom = s.rom ∧ t.romLen = s.romLen ∧ t.host = s.host) ∧
    (exec .tick s = .next t → s.seq ≠ .playing → t = { s with response := t.response }) ∧
    (exec .tick s = .next t → s.seq = .playing →
      t = { s with
        order := t.order, row := t.row, tickcnt := t.tickcnt, curpat := t.curpat, seq := t.seq,
        rowBoundary := t.rowBoundary, orderBoundary := t.orderBoundary, response := t.response,
        engine := .idle, vars := LoadVars.initial, chan := 0, cmds := [] }) ∧
    (∀ l : Bool, exec (.wrctrl l) s = .next t → t = { s with loop := l, response := t.response }) ∧
    (∀ w : ReqWord, 4 ≤ w.toNat / 4096 → exec (decodeReq w) s = .next t → t = { s with response := t.response }) ∧
    (∀ (p : BitVec 4) (o : BitVec 12), exec (.illegalOperand p o) s = .next t → t = { s with response := t.response })

/-- R77: no request but LOAD reads the module ROM: with any other ROM in its place the request answers the same. -/
def Obligations.PlaybackNeverReadsRom : Prop :=
  ∀ (i : Instr) (s : State) (rom : List Host.Cell) (n : Nat), (encode i).fmt = .req → i ≠ .load →
    exec i { s with rom := rom, romLen := n } = mapNext (fun t => { t with rom := rom, romLen := n }) (exec i s)

/-! ### The reader -/

/-- R62, R63, R64: ReadByte, ReadWord (low byte first, 0 for a missing byte) and Seek. -/
def Obligations.ReaderPrimitives : Prop :=
  ∀ s : State,
    (s.pos < s.romLen → readByte s = (Memory.read s.rom s.pos, { s with pos := s.pos + 1 })) ∧
    (s.romLen ≤ s.pos → readByte s = (0, { s with eos := true })) ∧
    (s.pos + 1 < s.romLen →
      (readWord s).1.toNat = (Memory.read s.rom s.pos).toNat + 256 * (Memory.read s.rom (s.pos + 1)).toNat ∧
        (readWord s).2 = { s with pos := s.pos + 2 }) ∧
    (s.pos + 1 = s.romLen →
      (readWord s).1.toNat = (Memory.read s.rom s.pos).toNat ∧
        (readWord s).2 = { s with pos := s.pos + 1, eos := true }) ∧
    (s.romLen ≤ s.pos → readWord s = (0, { s with eos := true })) ∧
    (∀ off : Nat, seek off s = { s with pos := off })

/-- R216, R272 (log 3): an image of at most 2^ROM_ADDR_W bytes placed by the host is what the ROM then reads, and the
block's own state is untouched; a longer one is refused. -/
def Obligations.PlacedImageReadsBack : Prop :=
  ∀ (s : State) (bytes : List Byte) (rest : List HostAction), s.engine = .idle → s.host = .image bytes :: rest →
    (bytes.length ≤ 2 ^ Config.romAddrW →
      ∃ t, step s = .next t ∧ t = { s with host := rest, rom := t.rom, romLen := bytes.length } ∧
        Memory.wf t.rom = true ∧ ∀ a : Nat, Memory.read t.rom a = bytes.getD a 0) ∧
    (2 ^ Config.romAddrW < bytes.length → step s = .refused .imageTooLong)

/-! ### One step -/

/-- A step runs the instruction decoded where the block takes its next one: a request from the host (log 1), and at
the model's own positions inside a request (log 2) a token at POS, the cell of the channel, a command about to be
emitted. The step moves past it: the request leaves the host's list,
POS moves over the token's bytes, the channel counter goes on. With nothing lined up the state holds. -/
def Obligations.StepRunsDecodedInstruction : Prop :=
  (∀ s : State, s.engine = .idle → s.host = [] → step s = .next s) ∧
  (∀ (s : State) (w : ReqWord) (rest : List HostAction) (i : Instr),
    s.engine = .idle → s.host = .request w :: rest → decode ⟨.req, w.toNat⟩ = .instr i →
    step s = exec i { s with host := rest }) ∧
  (∀ (s : State) (p : Phase) (f : Format) (i : Instr),
    s.engine = .load p → p.format = some f → s.eos = false → s.pos + tokenLength f ≤ s.romLen →
    decode ⟨f, imageWord s f⟩ = .instr i → step s = exec i { s with pos := s.pos + tokenLength f }) ∧
  (∀ (s : State) (c : Fin 9) (i : Instr),
    s.engine = .cells c → decode ⟨.cell, (readCell s.song s.curpat.toNat s.row.toNat c.val).toNat⟩ = .instr i →
    step s = exec i { s with chan := c, engine := afterCell c }) ∧
  (∀ (s : State) (w : CmdWord) (i : Instr),
    s.engine = .emit w → decode ⟨.cmd, w.toNat⟩ = .instr i → step s = exec i { s with engine := .tickEnd })

/-- R149, R241, at the model's positions inside a LOAD (log 2), whose working fields are cleared (log 17): a token
that does not lie whole inside the image ends the LOAD with TRUNCATED_INPUT and EOS = 1, by fault entry; the header
byte, which R133 does not check, is left out. -/
def Obligations.TruncatedTokenFailsLoad : Prop :=
  ∀ (s : State) (p : Phase) (f : Format),
    s.engine = .load p → p.format = some f → p ≠ .hdr → s.romLen < s.pos + tokenLength f →
    ∃ t, step s = .next t ∧
      t = { s with
        song := Song.empty, order := 0, row := 0, tickcnt := 0, curpat := 0, rowBoundary := false,
        orderBoundary := false, seq := .idle, err := .truncatedInput, eos := true, pos := t.pos,
        engine := .idle, vars := LoadVars.initial, chan := 0, cmds := [],
        response := some ⟨.loadFailed, 1, []⟩ }

/-! ### The module tokens

Which token a LOAD reads next is held in `engine`, the model's own field (log 2). -/

/-- R133, R134: HDR sets SLOW_TIMER and SPEED and nothing else, and the description block follows when DESC is set;
description bytes are skipped and none is kept, and the zero byte ends the block. -/
def Obligations.HeaderTokensKeepOnlySongFlags : Prop :=
  ∀ s : State,
    (∀ b : Byte, exec (decodeHdr b) s = .next { s with
      song := { s.song with slowTimer := decide (b.toNat / 64 % 2 = 1), speed := BitVec.ofNat 5 (b.toNat % 32) },
      engine := .load (if b.toNat / 128 = 1 then .desc else .islot) }) ∧
    (∀ (d sl ig : Bool) (sp : BitVec 5), exec (.hdr d sl ig sp) s = .next { s with
      song := { s.song with slowTimer := sl, speed := sp }, engine := .load (if d then .desc else .islot) }) ∧
    (∀ b : Byte, exec (.descByte b) s = .next { s with engine := .load .desc }) ∧
    exec .descEnd s = .next { s with engine := .load .islot }

/-- R135, R136, R137: the instrument table's tokens. A record byte goes to IROM[n−1][k] and to no other place; the
eleventh sets ILOADED[n−1]; a slot byte 32..255 is MALFORMED_MODULE. -/
def Obligations.InstrumentTokensFillInstrumentRom : Prop :=
  ∀ s : State,
    exec .islotEnd s = .next { s with engine := .load .olen } ∧
    (∀ n : Byte, exec (.islotBad n) s = .next (faultEntry .malformedModule s)) ∧
    (∀ n : BitVec 5, n ≠ 0 → ∃ e : Fin 31, e.val + 1 = n.toNat ∧
      exec (.islot n) s = .next { s with vars := { s.vars with entry := e, byteNo := 0 }, engine := .load .irec }) ∧
    (∀ b : Byte, ∃ t, exec (.irecByte b) s = .next t ∧
      t = { s with
        song := { s.song with irom := t.song.irom, iloaded := t.song.iloaded },
        vars := { s.vars with byteNo := t.vars.byteNo },
        engine := .load (if s.vars.byteNo = 10 then .islot else .irec) } ∧
      (s.vars.byteNo ≠ 10 → t.vars.byteNo.val = s.vars.byteNo.val + 1) ∧
      (∀ (e : Fin 31) (k : Fin 11), t.song.irom[e][k] =
        if e = s.vars.entry ∧ k = s.vars.byteNo then b else s.song.irom[e][k]) ∧
      (∀ e : Fin 31, t.song.iloaded[e] =
        if e = s.vars.entry ∧ s.vars.byteNo = 10 then true else s.song.iloaded[e]))

/-- R138: SONGLEN takes the length byte; an entry goes to ORDLIST[i] as read and to no other place; the offset table
follows the last entry, at once when the length is 0. -/
def Obligations.OrderTokensFillOrderList : Prop :=
  ∀ s : State,
    (∀ l : Byte, ∃ t, exec (.olen l) s = .next t ∧
      t = { s with song := { s.song with songlen := l }, vars := t.vars,
                   engine := .load (if l = 0 then .pofs else .oent) } ∧
      t.vars.orderNo = 0 ∧ (l = 0 → t.vars.slot = 0)) ∧
    (∀ e : Byte, ∃ t, exec (.oent e) s = .next t ∧
      t = { s with
        song := { s.song with ordlist := t.song.ordlist }, vars := t.vars,
        engine := .load (if s.vars.orderNo.val + 1 < s.song.songlen.toNat then .oent else .pofs) } ∧
      (∀ i : Fin 255, t.song.ordlist[i] = if i = s.vars.orderNo then e else s.song.ordlist[i]) ∧
      (s.vars.orderNo.val + 1 < s.song.songlen.toNat → t.vars.orderNo.val = s.vars.orderNo.val + 1) ∧
      (s.song.songlen.toNat ≤ s.vars.orderNo.val + 1 → t.vars.slot = 0))

/-- R139, R141: an offset word goes to POFS[s], 0 for an unused slot, and to no other place; the slot walk follows
word 31. -/
def Obligations.OffsetTokensFillOffsetTable : Prop :=
  ∀ (s : State) (w : Half) (i : Instr), decodePofs w = i ∨ i = .pofs w ∨ (i = .pofsUnused ∧ w = 0) →
    ∃ t, exec i s = .next t ∧
      t = { s with
        song := { s.song with pofs := t.song.pofs }, vars := { s.vars with slot := t.vars.slot },
        engine := .load (if s.vars.slot = 31 then .slot else .pofs) } ∧
      t.vars.slot.val = (s.vars.slot.val + 1) % 32 ∧
      ∀ k : Fin 32, t.song.pofs[k] = if k = s.vars.slot then w else s.song.pofs[k]

/-- R142, R143, R70: a line byte selects its row (R99) and a channel byte its channel modulo 9 (R100); they write no
store. -/
def Obligations.LineAndChannelTokensSelectPlace : Prop :=
  ∀ (s : State) (ig : Bool) (row : BitVec 6) (ig3 : BitVec 3) (c : BitVec 4),
    exec (.line ig row) s =
      .next { s with vars := { s.vars with row := row, lineLast := false }, engine := .load .chan } ∧
    exec (.lineLast ig row) s =
      .next { s with vars := { s.vars with row := row, lineLast := true }, engine := .load .chan } ∧
    (∃ ch : Fin 9, ch.val = c.toNat % 9 ∧ exec (.chan ig3 c) s =
      .next { s with vars := { s.vars with chan := ch, chanLast := false }, engine := .load .note }) ∧
    (∃ ch : Fin 9, ch.val = c.toNat % 9 ∧ exec (.chanLast ig3 c) s =
      .next { s with vars := { s.vars with chan := ch, chanLast := true }, engine := .load .note })

/-- R144, R145, R146: the cell of (slot, row, channel) takes all five fields together, INST = 16*IHI + ILO, and every
other cell reads as before; with a nonzero effect id nothing is written until the parameter byte. -/
def Obligations.NoteTokensWriteOneCell : Prop :=
  ∀ s : State, Store.wf 0 s.song.prom = true →
    (∀ (ihi : Bool) (oct : BitVec 3) (note ilo : BitVec 4), ∃ t, exec (.noteNoparam ihi oct note ilo) s = .next t ∧
      t = { s with song := { s.song with prom := t.song.prom }, vars := t.vars, engine := t.engine } ∧
      ∀ (k : Fin 32) (r : BitVec 6) (c : Fin 9), (readCell t.song k.val r.toNat c.val).toNat =
        if k = s.vars.slot ∧ r = s.vars.row ∧ c = s.vars.chan then
          (16 * bit ihi + ilo.toNat) * 2 ^ 19 + oct.toNat * 2 ^ 16 + note.toNat * 2 ^ 12
        else (readCell s.song k.val r.toNat c.val).toNat) ∧
    (∀ (ihi : Bool) (oct : BitVec 3) (note ilo eff : BitVec 4), ∃ n : BitVec 5, n.toNat = 16 * bit ihi + ilo.toNat ∧
      exec (.noteParam ihi oct note ilo eff) s = .next { s with
        vars := { s.vars with inst := n, oct := oct, note := note, eff := eff }, engine := .load .param }) ∧
    (∀ p : Byte, ∃ t, exec (.param p) s = .next t ∧
      t = { s with song := { s.song with prom := t.song.prom }, vars := t.vars, engine := t.engine } ∧
      ∀ (k : Fin 32) (r : BitVec 6) (c : Fin 9), (readCell t.song k.val r.toNat c.val).toNat =
        if k = s.vars.slot ∧ r = s.vars.row ∧ c = s.vars.chan then
          s.vars.inst.toNat * 2 ^ 19 + s.vars.oct.toNat * 2 ^ 16 + s.vars.note.toNat * 2 ^ 12 +
            s.vars.eff.toNat * 2 ^ 8 + p.toNat
        else (readCell s.song k.val r.toNat c.val).toNat)

/-- R147, R148: after a cell comes the next cell of the line, after the line's last cell the next line, after the
pattern's last line the next slot, and after slot 31 the validation. -/
def Obligations.CellEndsLinePatternOrWalk : Prop :=
  ∀ (s t : State) (i : Instr), (∃ ihi oct note ilo, i = .noteNoparam ihi oct note ilo) ∨ (∃ p, i = .param p) →
    exec i s = .next t →
    t.engine = .load (
      if s.vars.chanLast = false then .chan
      else if s.vars.lineLast = false then .line
      else if s.vars.slot = 31 then .validate else .slot) ∧
    t.vars = (if s.vars.chanLast = true ∧ s.vars.lineLast = true ∧ s.vars.slot ≠ 31
      then { s.vars with slot := s.vars.slot + 1 } else s.vars)

/-- R140, at the model's position before slot s (log 2): at slot s an unused slot is passed over, an offset at or past
ROM_LEN is MALFORMED_MODULE, and else the reader seeks to the pattern. -/
def Obligations.SlotWalkSeeksOrRefuses : Prop :=
  ∀ s : State, s.engine = .load .slot →
    (s.song.pofs[s.vars.slot] = 0 → s.vars.slot ≠ 31 →
      step s = .next { s with vars := { s.vars with slot := s.vars.slot + 1 } }) ∧
    (s.song.pofs[s.vars.slot] = 0 → s.vars.slot = 31 → step s = .next { s with engine := .load .validate }) ∧
    (s.song.pofs[s.vars.slot] ≠ 0 → s.romLen ≤ s.song.pofs[s.vars.slot].toNat →
      step s = .next (faultEntry .malformedModule s)) ∧
    (s.song.pofs[s.vars.slot] ≠ 0 → s.song.pofs[s.vars.slot].toNat < s.romLen →
      step s = .next { s with pos := s.song.pofs[s.vars.slot].toNat, engine := .load .line })

/-- R150, R151, R152, R155, at the model's position before the validation (log 2): the validation refuses speed 0,
then order length 0, then an order entry naming an unused slot, all with MALFORMED_MODULE, and else commits: every
write of R153 and nothing else, the working fields of the LOAD cleared (log 17). -/
def Obligations.ValidationRefusesOrCommits : Prop :=
  ∀ s : State, s.engine = .load .validate → ∃ t, step s = .next t ∧
    (s.song.speed.toNat = 0 ∨ s.song.songlen.toNat = 0 ∨
        (∃ i : Fin 255, i.val < s.song.songlen.toNat ∧
          s.song.pofs[s.song.ordlist[i].toNat % 32]? = some (0 : Half)) →
      t = faultEntry .malformedModule s) ∧
    (¬(s.song.speed.toNat = 0 ∨ s.song.songlen.toNat = 0 ∨
        (∃ i : Fin 255, i.val < s.song.songlen.toNat ∧
          s.song.pofs[s.song.ordlist[i].toNat % 32]? = some (0 : Half))) →
      t = { s with
        order := 0, row := 0, tickcnt := 0, curpat := t.curpat, rowBoundary := false, orderBoundary := false,
        err := .none, seq := .playing, engine := .idle, vars := LoadVars.initial, chan := 0, cmds := [],
        response := some ⟨.ok, BitVec.ofNat 16 (statusNumber t), []⟩ } ∧
      t.curpat.toNat = s.song.ordlist[0].toNat % 32)

/-! ### Runs of tokens

Runs of single steps inside a LOAD, from the model's own positions (log 2). -/

/-- R134: a description block of any nonzero bytes and its zero byte is skipped, and nothing of it is kept. -/
def Obligations.DescriptionBlockIsSkipped : Prop :=
  ∀ (s : State) (bytes : List Byte), s.engine = .load .desc → s.eos = false → (∀ b ∈ bytes, b ≠ 0) →
    RomHolds s s.pos (bytes ++ [0]) →
    Host.Core.run Sys2Proof.core (bytes.length + 1) s =
      .next { s with pos := s.pos + bytes.length + 1, engine := .load .islot }

/-- R135, R137: a slot byte n in 1..31 and eleven bytes store the record as IROM[n−1] in read order and set
ILOADED[n−1], whatever the entry held before; every other entry is unchanged. -/
def Obligations.InstrumentRecordIsStored : Prop :=
  ∀ (s : State) (n : BitVec 5) (r : Vector Byte 11), s.engine = .load .islot → s.eos = false → n ≠ 0 →
    RomHolds s s.pos (n.setWidth 8 :: r.toList) →
    ∃ t, Host.Core.run Sys2Proof.core 12 s = .next t ∧
      t = { s with song := { s.song with irom := t.song.irom, iloaded := t.song.iloaded },
                   pos := s.pos + 12, vars := t.vars } ∧
      ∀ e : Fin 31,
        t.song.irom[e] = (if e.val + 1 = n.toNat then r else s.song.irom[e]) ∧
        t.song.iloaded[e] = (if e.val + 1 = n.toNat then true else s.song.iloaded[e])

/-- R138: a length byte and that many entries set SONGLEN and ORDLIST[0..L−1] in file order, duplicates kept; the
offset table follows. -/
def Obligations.OrderListIsStored : Prop :=
  ∀ (s : State) (entries : List Byte), s.engine = .load .olen → s.eos = false → entries.length ≤ 255 →
    RomHolds s s.pos (BitVec.ofNat 8 entries.length :: entries) →
    ∃ t, Host.Core.run Sys2Proof.core (entries.length + 1) s = .next t ∧
      t = { s with song := { s.song with songlen := BitVec.ofNat 8 entries.length, ordlist := t.song.ordlist },
                   pos := s.pos + entries.length + 1, vars := t.vars, engine := .load .pofs } ∧
      t.vars.slot = 0 ∧
      ∀ i : Fin 255, t.song.ordlist[i] = entries.getD i.val s.song.ordlist[i]

/-- R139, R65: 64 bytes store 32 little-endian words as POFS[0..31]; the slot walk follows from slot 0. -/
def Obligations.OffsetTableIsStored : Prop :=
  ∀ (s : State) (words : Vector Half 32), s.engine = .load .pofs → s.eos = false → s.vars.slot = 0 →
    RomHolds s s.pos (words.toList.flatMap fun w => [BitVec.ofNat 8 (w.toNat % 256), BitVec.ofNat 8 (w.toNat / 256)]) →
    Host.Core.run Sys2Proof.core 32 s =
      .next { s with song := { s.song with pofs := words }, pos := s.pos + 64, engine := .load .slot }

/-- R103, R144, R145: one packed cell is three bytes when the effect nibble is 0 and four when it is not, even when
the parameter byte is 0; the byte after it is not consumed. -/
def Obligations.PackedCellTakesThreeOrFourBytes : Prop :=
  ∀ (s : State) (ch n0 n1 p : Byte), s.engine = .load .chan → s.eos = false →
    (n1.toNat % 16 = 0 → RomHolds s s.pos [ch, n0, n1] →
      ∃ t, Host.Core.run Sys2Proof.core 2 s = .next t ∧ t.pos = s.pos + 3 ∧
        t.song = writeCell s.song s.vars.slot.val s.vars.row.toNat (ch.toNat % 16)
          (BitVec.ofNat 24 ((16 * (n0.toNat / 128) + n1.toNat / 16) * 2 ^ 19 + n0.toNat / 16 % 8 * 2 ^ 16 +
            n0.toNat % 16 * 2 ^ 12))) ∧
    (n1.toNat % 16 ≠ 0 → RomHolds s s.pos [ch, n0, n1, p] →
      ∃ t, Host.Core.run Sys2Proof.core 3 s = .next t ∧ t.pos = s.pos + 4 ∧
        t.song = writeCell s.song s.vars.slot.val s.vars.row.toNat (ch.toNat % 16)
          (BitVec.ofNat 24 ((16 * (n0.toNat / 128) + n1.toNat / 16) * 2 ^ 19 + n0.toNat / 16 % 8 * 2 ^ 16 +
            n0.toNat % 16 * 2 ^ 12 + n1.toNat % 16 * 2 ^ 8 + p.toNat)))

/-! ### LOAD -/

/-- R130, R156, R157: in every state, on every ROM, LOAD ends: it answers a next state, between requests, with OK or
LOAD_FAILED; CTRL, the ROM and the host's other actions are kept. That the working fields of the LOAD are cleared at
its end is the model's choice (log 17). -/
def Obligations.LoadAlwaysCompletes : Prop :=
  ∀ s : State, ∃ t, exec .load s = .next t ∧ t.BetweenRequests ∧
    (∃ r, t.response = some r ∧ r.cmds = [] ∧ (r.code = .ok ∨ r.code = .loadFailed)) ∧
    t.loop = s.loop ∧ t.rom = s.rom ∧ t.romLen = s.romLen ∧ t.host = s.host

/-- R130 to R153: LOAD succeeds. An image that holds, from 0x11 on, a header without a description block, the record
of one instrument, an order list naming one slot and an offset table placing that slot, and at the offset a pattern
of one cell (the shape of program P1 of spec/95_test_vectors.md), loads: the song is exactly what the image says, and
playback starts. -/
def Obligations.WellFormedModuleLoads : Prop :=
  ∀ (s : State) (slow ignored : Bool) (speed : BitVec 5) (n : BitVec 5) (r : Vector Byte 11) (entries : List Byte)
    (k : Fin 32) (ofs : Half) (row : BitVec 6) (ch : BitVec 4) (ihi : Bool) (oct : BitVec 3) (note ilo : BitVec 4),
    speed ≠ 0 → n ≠ 0 → 1 ≤ entries.length → entries.length ≤ 255 → (∀ e ∈ entries, e.toNat % 32 = k.val) →
    ofs ≠ 0 →
    RomHolds s 0x11
      ([hdrByte false slow ignored speed, n.setWidth 8] ++ r.toList ++ [0, BitVec.ofNat 8 entries.length] ++ entries ++
        (List.finRange 32).flatMap fun j =>
          if j = k then [BitVec.ofNat 8 (ofs.toNat % 256), BitVec.ofNat 8 (ofs.toNat / 256)] else [0, 0]) →
    RomHolds s ofs.toNat
      [lineByte true false row, chanByte true 0 ch, BitVec.ofNat 8 (128 * bit ihi + 16 * oct.toNat + note.toNat),
        BitVec.ofNat 8 (16 * ilo.toNat)] →
    ∃ t, exec .load s = .next t ∧ t.response = some ⟨.ok, BitVec.ofNat 16 (statusNumber t), []⟩ ∧
      t.seq = .playing ∧ t.err = .none ∧ t.eos = false ∧ t.loop = s.loop ∧
      t.order = 0 ∧ t.row = 0 ∧ t.tickcnt = 0 ∧ t.curpat.toNat = k.val ∧
      t.song.slowTimer = slow ∧ t.song.speed = speed ∧ t.song.songlen.toNat = entries.length ∧
      (∀ i : Fin 255, t.song.ordlist[i] = entries.getD i.val 0) ∧
      (∀ j : Fin 32, t.song.pofs[j] = if j = k then ofs else 0) ∧
      (∀ e : Fin 31, t.song.irom[e] = (if e.val + 1 = n.toNat then r else Vector.replicate 11 0) ∧
        t.song.iloaded[e] = decide (e.val + 1 = n.toNat)) ∧
      ∀ (p : Fin 32) (q : BitVec 6) (c : Fin 9), (readCell t.song p.val q.toNat c.val).toNat =
        if p = k ∧ q = row ∧ c.val = ch.toNat % 9 then
          (16 * bit ihi + ilo.toNat) * 2 ^ 19 + oct.toNat * 2 ^ 16 + note.toNat * 2 ^ 12
        else 0

/-- R153: a LOAD that answers OK leaves position (0, 0, 0), CURPAT = ORDLIST[0] mod 32, both boundary flags 0, ERR
NONE, STATE PLAYING, and DATA is STATUS. -/
def Obligations.LoadSuccessStartsPlayback : Prop :=
  ∀ (s t : State) (r : Response), exec .load s = .next t → t.response = some r → r.code = .ok →
    t.order = 0 ∧ t.row = 0 ∧ t.tickcnt = 0 ∧ t.curpat.toNat = t.song.ordlist[0].toNat % 32 ∧
      t.rowBoundary = false ∧ t.orderBoundary = false ∧ t.err = .none ∧ t.seq = .playing ∧
      r = ⟨.ok, BitVec.ofNat 16 (statusNumber t), []⟩

/-- R150, R151, R152, R39: the song a LOAD that answers OK leaves has speed 1..31, order length 1..255, and every
order entry names an allocated slot. -/
def Obligations.LoadedSongIsPlayable : Prop :=
  ∀ (s t : State), exec .load s = .next t → t.seq = .playing →
    t.song.Playable ∧ t.eos = false ∧ t.pos ≤ t.romLen

/-- R243: `raise Fault` answers fault entry, the model's own working fields cleared with it (log 17), and what a LOAD
that answers LOAD_FAILED leaves depends only on the code, POS, EOS and what LOAD never writes. -/
def Obligations.FailedLoadLeavesFaultEntryState : Prop :=
  (∀ (e : ErrCode) (s : State), raiseFault e s = .next { s with
    song := Song.empty, order := 0, row := 0, tickcnt := 0, curpat := 0, rowBoundary := false,
    orderBoundary := false, seq := .idle, err := e, engine := .idle, vars := LoadVars.initial, chan := 0,
    cmds := [], response := some ⟨.loadFailed, BitVec.ofNat 16 e.code.toNat, []⟩ }) ∧
  (∀ (s t : State) (r : Response), exec .load s = .next t → t.response = some r → r.code = .loadFailed →
    (t.err = .truncatedInput ∨ t.err = .malformedModule) ∧
    t = { s with
      song := Song.empty, order := 0, row := 0, tickcnt := 0, curpat := 0, rowBoundary := false,
      orderBoundary := false, seq := .idle, err := t.err, pos := t.pos, eos := t.eos,
      engine := .idle, vars := LoadVars.initial, chan := 0, cmds := [],
      response := some ⟨.loadFailed, BitVec.ofNat 16 t.err.code.toNat, []⟩ })

/-- R132: an image shorter than 18 bytes is MALFORMED_MODULE with EOS = 0; one of exactly 18 bytes passes the check
and fails with TRUNCATED_INPUT. -/
def Obligations.ShortImageIsMalformed : Prop :=
  ∀ s : State,
    (s.romLen < 18 → ∃ t, exec .load s = .next t ∧ t.err = .malformedModule ∧ t.eos = false ∧
      t.response = some ⟨.loadFailed, 2, []⟩) ∧
    (s.romLen = 18 → ∃ t, exec .load s = .next t ∧ t.err = .truncatedInput ∧ t.eos = true ∧
      t.response = some ⟨.loadFailed, 1, []⟩)

/-- R27: after a LOAD, EOS = 1 exactly when that LOAD failed with ERR = 1. -/
def Obligations.EosAfterLoadIffTruncated : Prop :=
  ∀ s t : State, exec .load s = .next t → (t.eos = true ↔ t.err = .truncatedInput)

/-- R131, R157, R243: what LOAD leaves is settled by the ROM alone: two states with the same ROM, whatever song or
position they hold, differ after it only in CTRL and the host's other actions. -/
def Obligations.LoadDependsOnlyOnRom : Prop :=
  ∀ s₁ s₂ : State, s₁.rom = s₂.rom → s₁.romLen = s₂.romLen →
    exec .load s₂ = mapNext (fun t => { t with loop := s₂.loop, host := s₂.host }) (exec .load s₁)

/-- R14, R130, R158, and log 2: the atomic LOAD and the atomic TICK are runs of single steps, each of one token, one
cell or one step without an instruction. -/
def Obligations.RequestsAreRunsOfInnerSteps : Prop :=
  (∀ s t : State, 18 ≤ s.romLen → exec .load s = .next t →
    ∃ k : Nat, Host.Core.run Sys2Proof.core k (loadStart s) = .next t) ∧
  (∀ s t : State, s.seq = .playing →
    (exec .tick s = .next t ↔
      Host.Core.run Sys2Proof.core (if s.tickcnt = 0 then 10 else 1) (startTick s) = .next t))

/-! ### Cells and commands -/

/-- R178: a cell with NOTE = 0 emits nothing, whatever its other fields; in every class EFF and PARAM are never
read. -/
def Obligations.CellEmptyEmitsNothing : Prop :=
  (∀ (s : State) (inst : BitVec 5) (oct : BitVec 3) (eff : BitVec 4) (p : Byte),
    exec (.cellEmpty inst oct eff p) s = .next s) ∧
  (∀ (s : State) (w w' : CellWord), w.toNat / 2 ^ 12 = w'.toNat / 2 ^ 12 →
    exec (decodeCell w) s = exec (decodeCell w') s)

/-- R177: a cell with NOTE = 15 emits KeyOff of its channel and nothing else, whatever its other fields. -/
def Obligations.CellKeyoffEmitsOnlyKeyOff : Prop :=
  ∀ (s : State) (inst : BitVec 5) (oct : BitVec 3) (eff : BitVec 4) (p : Byte),
    exec (.cellKeyoff inst oct eff p) s =
      .next { s with cmds := s.cmds ++ [BitVec.ofNat 104 (0xC000 + 1024 * s.chan.val)] }

/-- R176: a cell with NOTE 1..14 emits SetInstrument first when INST is not 0, then SetFrequency, then KeyOn. -/
def Obligations.CellNoteEmitsFrequencyAndKeyOn : Prop :=
  ∀ (s : State) (inst : BitVec 5) (oct : BitVec 3) (note eff : BitVec 4) (p : Byte),
    1 ≤ note.toNat → note.toNat ≤ 14 →
    exec (.cellNote oct note eff p) s = .next { s with cmds := s.cmds ++
      [BitVec.ofNat 104 (0x4000 + 1024 * s.chan.val + 16 * oct.toNat + note.toNat),
        BitVec.ofNat 104 (0x8000 + 1024 * s.chan.val)] } ∧
    ∀ h : inst.toNat - 1 < 31, inst ≠ 0 →
      exec (.cellNoteInst inst oct note eff p) s = .next { s with cmds := s.cmds ++
        [BitVec.ofNat 104 (setInstrumentNumber s.song s.chan.val inst.toNat h),
          BitVec.ofNat 104 (0x4000 + 1024 * s.chan.val + 16 * oct.toNat + note.toNat),
          BitVec.ofNat 104 (0x8000 + 1024 * s.chan.val)] }

/-- R182: SetInstrument(c, n) on a channel 0..8, whatever LOADED and DATA the word it came from held (log 11), emits
the number, the LOADED flag and the eleven bytes of IROM[n−1], byte k at bits 8k+7..8k of DATA; for an instrument the
module did not define, LOADED = 0 and DATA = 0, in a state whose undefined entries are empty (R35). -/
def Obligations.SetInstrumentLooksUpInstrument : Prop :=
  ∀ (s : State) (c : BitVec 4) (l : Bool) (n : BitVec 5) (d : BitVec 88) (h : n.toNat - 1 < 31),
    c.toNat ≤ 8 → n ≠ 0 →
    (∃ w : CmdWord, w.toNat = setInstrumentNumber s.song c.toNat n.toNat h ∧
      exec (.setInstrument c l n d) s = .next { s with cmds := s.cmds ++ [w] }) ∧
    (s.song.UndefinedPartsEmpty → s.song.iloaded[n.toNat - 1] = false →
      exec (.setInstrument c l n d) s =
        .next { s with cmds := s.cmds ++ [BitVec.ofNat 104 (1024 * c.toNat + n.toNat)] })

/-- R183, R184, R185: the other three commands on a channel 0..8, with their header values (R108) and zero data. -/
def Obligations.FrequencyAndKeyCommandsEmitTheirWord : Prop :=
  ∀ (s : State) (c : BitVec 4) (oct : BitVec 3) (note : BitVec 4), c.toNat ≤ 8 →
    (1 ≤ note.toNat → note.toNat ≤ 14 → exec (.setFrequency c oct note) s = .next { s with
      cmds := s.cmds ++ [BitVec.ofNat 104 (0x4000 + 1024 * c.toNat + 16 * oct.toNat + note.toNat)] }) ∧
    exec (.keyOn c) s = .next { s with cmds := s.cmds ++ [BitVec.ofNat 104 (0x8000 + 1024 * c.toNat)] } ∧
    exec (.keyOff c) s = .next { s with cmds := s.cmds ++ [BitVec.ofNat 104 (0xC000 + 1024 * c.toNat)] }

/-- R114, I7 (log 12): a command on a channel 9..15, a SetInstrument of instrument 0 and a SetFrequency of note 0 or
15 are refused by name. -/
def Obligations.NeverEmittedCommandsAreRefused : Prop :=
  ∀ (s : State) (c : BitVec 4) (l : Bool) (n : BitVec 5) (d : BitVec 88) (oct : BitVec 3) (note : BitVec 4),
    (9 ≤ c.toNat ∨ n = 0 → exec (.setInstrument c l n d) s = .refused .commandNeverEmitted) ∧
    (9 ≤ c.toNat ∨ note = 0 ∨ note = 15 → exec (.setFrequency c oct note) s = .refused .commandNeverEmitted) ∧
    (9 ≤ c.toNat → exec (.keyOn c) s = .refused .commandNeverEmitted ∧
      exec (.keyOff c) s = .refused .commandNeverEmitted)

/-! ### TICK -/

/-- R171, R172: a TICK in IDLE or ENDED emits nothing, changes nothing, and answers OK with STATUS. -/
def Obligations.TickOutsidePlayingChangesNothing : Prop :=
  ∀ s : State, s.seq = .idle ∨ s.seq = .ended →
    exec .tick s = .next { s with response := some ⟨.ok, BitVec.ofNat 16 (statusNumber s), []⟩ }

/-- R174, R176 to R178, R181: a PLAYING TICK with TICKCNT = 0 answers the commands of the nine cells of
PROM[CURPAT][ROW], channels ascending; with TICKCNT not 0 it emits none. -/
def Obligations.TickEmitsCommandsOfTheRow : Prop :=
  ∀ s : State, s.seq = .playing → s.song.Playable → s.PositionInSong →
    ∃ (t : State) (r : Response), exec .tick s = .next t ∧ t.response = some r ∧ r.code = .ok ∧
      r.data.toNat = statusNumber t ∧
      r.cmds.map BitVec.toNat =
        if s.tickcnt = 0 then rowCommands s.song s.curpat.toNat s.row.toNat else []

/-- R173, R179, R180, R186: how a PLAYING TICK moves the position, STATE, CURPAT and the boundary flags; everything
else of the block is unchanged. That the working fields of the TICK are cleared at its end is the model's choice
(log 17). -/
def Obligations.TickAdvancesPosition : Prop :=
  ∀ s : State, s.seq = .playing → s.song.speed.toNat ≠ 0 → s.order.toNat < s.song.songlen.toNat →
    ∃ t : State, exec .tick s = .next t ∧
      t = { s with
        tickcnt := t.tickcnt, row := t.row, order := t.order, curpat := t.curpat, seq := t.seq,
        rowBoundary := t.rowBoundary, orderBoundary := t.orderBoundary, response := t.response,
        engine := .idle, vars := LoadVars.initial, chan := 0, cmds := [] } ∧
      t.tickcnt.toNat = (s.tickcnt.toNat + 1) % s.song.speed.toNat ∧
      t.rowBoundary = decide (t.tickcnt.toNat = 0) ∧
      t.row.toNat = (if t.tickcnt.toNat = 0 then (s.row.toNat + 1) % 64 else s.row.toNat) ∧
      t.orderBoundary = decide (t.tickcnt.toNat = 0 ∧ t.row.toNat = 0) ∧
      (t.orderBoundary = false → t.order = s.order ∧ t.seq = .playing ∧ t.curpat = s.curpat) ∧
      (t.orderBoundary = true →
        t.order.toNat =
          (if s.order.toNat + 1 < s.song.songlen.toNat then s.order.toNat + 1
           else if s.loop then 0 else s.order.toNat) ∧
        t.seq = (if s.order.toNat + 1 < s.song.songlen.toNat ∨ s.loop = true then .playing else .ended) ∧
        s.song.ordlist[t.order.toNat]?.map (fun e => e.toNat % 32) = some t.curpat.toNat)

/-- R11, R114: a TICK answers at most 27 commands, and each is one the decoder takes back. -/
def Obligations.TickCommandsAreBoundedAndWellFormed : Prop :=
  ∀ (s t : State) (r : Response), exec .tick s = .next t → t.response = some r →
    r.cmds.length ≤ 27 ∧ ∀ w ∈ r.cmds, ∃ i, decode ⟨.cmd, w.toNat⟩ = .instr i ∧ i.wellFormed = true

/-- R187, R275: LOOP is read only by the TICK that wraps ROW to 0 at the last order position: any other TICK runs the
same with LOOP changed. -/
def Obligations.LoopBitReadOnlyAtSongEnd : Prop :=
  ∀ (s : State) (b : Bool),
    ¬((s.tickcnt.toNat + 1) % s.song.speed.toNat = 0 ∧ s.row = 63 ∧
      s.song.songlen.toNat ≤ s.order.toNat + 1) →
    exec .tick { s with loop := b } = mapNext (fun t => { t with loop := b }) (exec .tick s)

/-- R189: SPEED consecutive TICKs advance exactly one row. -/
def Obligations.SpeedTicksAdvanceOneRow : Prop :=
  ∀ s : State, s.seq = .playing → s.song.Playable → s.PositionInSong → s.tickcnt = 0 → s.row ≠ 63 →
    ∃ t, ticks s.song.speed.toNat s = .next t ∧ t.seq = .playing ∧ t.order = s.order ∧
      t.row.toNat = s.row.toNat + 1 ∧ t.tickcnt = 0 ∧ t.curpat = s.curpat ∧ t.song = s.song

/-- R189: from the position LOAD leaves, row r of order position o is processed by TICK number (o*64 + r)*SPEED + 1:
after the TICKs before it the block stands there, PLAYING. -/
def Obligations.RowIsProcessedByItsTickNumber : Prop :=
  ∀ (s : State) (o r : Nat), s.seq = .playing → s.song.Playable → s.PositionInSong → s.order = 0 → s.row = 0 →
    s.tickcnt = 0 → o < s.song.songlen.toNat → r < 64 →
    ∃ t, ticks ((o * 64 + r) * s.song.speed.toNat) s = .next t ∧ t.seq = .playing ∧ t.order.toNat = o ∧
      t.row.toNat = r ∧ t.tickcnt = 0 ∧ s.song.ordlist[o]?.map slotOf = some t.curpat ∧ t.song = s.song

/-- R189: TICK number SPEED*64*SONGLEN wraps past the end of the order list: with LOOP = 0 it sets ENDED, ORDER kept
at SONGLEN−1, with LOOP = 1 it returns to position (0, 0, 0). No earlier TICK does either: after k TICKs before it the
block is PLAYING at the k-th position, ORDER*64 + ROW = k / SPEED and TICKCNT = k mod SPEED. -/
def Obligations.FullPassEndsOrLoops : Prop :=
  ∀ s : State, s.seq = .playing → s.song.Playable → s.PositionInSong → s.order = 0 → s.row = 0 → s.tickcnt = 0 →
    (∃ t, ticks (s.song.speed.toNat * 64 * s.song.songlen.toNat) s = .next t ∧ t.row = 0 ∧ t.tickcnt = 0 ∧
      t.song = s.song ∧ t.rowBoundary = true ∧ t.orderBoundary = true ∧
      (s.loop = false → t.seq = .ended ∧ t.order.toNat + 1 = s.song.songlen.toNat) ∧
      (s.loop = true → t.seq = .playing ∧ t.order = 0 ∧ t.curpat = s.curpat)) ∧
    ∀ k : Nat, k < s.song.speed.toNat * 64 * s.song.songlen.toNat →
      ∃ t, ticks k s = .next t ∧ t.seq = .playing ∧ t.song = s.song ∧
        t.order.toNat * 64 + t.row.toNat = k / s.song.speed.toNat ∧ t.tickcnt.toNat = k % s.song.speed.toNat

/-! ### Invariants of every step -/

/-- R39, R24, R27, R244, R60, R70: the invariant holds after every step from a state where it holds. -/
def Obligations.StepKeepsInvariant : Prop :=
  ∀ s t : State, s.Inv → step s = .next t → t.Inv

/-- R33, R35, R141: the parts of the stores the module did not define stay empty over every step. -/
def Obligations.StepKeepsUndefinedPartsEmpty : Prop :=
  ∀ s t : State, s.Inv → s.song.UndefinedPartsEmpty → step s = .next t → t.song.UndefinedPartsEmpty

/-- R110, R156, R245: from a state of the invariant no step faults, and every request is answered by a response of its
own: with no earlier response in the state the step answers the very same next state. -/
def Obligations.StepAnswersEveryRequest : Prop :=
  ∀ s : State, s.Inv →
    (∀ f, step s ≠ .fault f) ∧
    (∀ (w : ReqWord) (rest : List HostAction), s.host = .request w :: rest →
      ∃ (t : State) (r : Response), step s = .next t ∧ t.host = rest ∧ t.response = some r ∧
        step { s with response := none } = .next t)

/-! ### Encodings and stores -/

/-- Decoding the encoding of a well-formed instruction gives it back, with every operand (R92 to R109). -/
def Obligations.DecodeOfEncodeIsIdentity : Prop :=
  ∀ i : Instr, i.wellFormed = true → decode (encode i) = .instr i

/-- A number that decodes is the encoding of what it decodes to, and that is well-formed: no word has two meanings
and no bit is dropped. -/
def Obligations.EncodeOfDecodeIsIdentity : Prop :=
  ∀ (c : Code) (i : Instr), decode c = .instr i → encode i = c ∧ i.wellFormed = true

/-- R114 lists the command words the block never emits and says that a consumer may treat them as malformed; that the
decoder rejects exactly these is the model's reading of it (log 12, DEDUCED). -/
def Obligations.NeverEmittedCommandWordsRejected : Prop :=
  ∀ w : CmdWord,
    (9 ≤ w.toNat / 2 ^ 10 % 16 ∨
      (w.toNat / 2 ^ 14 % 4 = 0 ∧ (w.toNat % 32 = 0 ∨ w.toNat / 2 ^ 6 % 16 ≠ 0)) ∨
      (w.toNat / 2 ^ 14 % 4 = 1 ∧ (w.toNat % 16 = 0 ∨ w.toNat % 16 = 15 ∨ w.toNat / 2 ^ 7 % 8 ≠ 0)) ∨
      (2 ≤ w.toNat / 2 ^ 14 % 4 ∧ w.toNat % 2 ^ 10 ≠ 0) ∨
      (w.toNat / 2 ^ 14 % 4 ≠ 0 ∧ w.toNat / 2 ^ 16 ≠ 0)) ↔
    ∃ r, decode ⟨.cmd, w.toNat⟩ = .rejected r

/-- Words written out from the encodings of the spec decode to what they stand for. -/
def Obligations.WrittenOutWordsDecode : Prop :=
  decode ⟨.req, 0x3001⟩ = .instr (.wrctrl true) ∧ decode ⟨.req, 0x4004⟩ = .instr (.rdreg .row) ∧
    decode ⟨.req, 0x2001⟩ = .instr (.illegalOperand 2 1) ∧ decode ⟨.hdr, 0xC1⟩ = .instr (.hdr true true false 1) ∧
    decode ⟨.islot, 0x1F⟩ = .instr (.islot 31) ∧ decode ⟨.line, 0x85⟩ = .instr (.lineLast false 5) ∧
    decode ⟨.chan, 0x8A⟩ = .instr (.chanLast 0 10) ∧ decode ⟨.note, 0x253A⟩ = .instr (.noteParam false 2 5 3 10) ∧
    decode ⟨.cell, 0x0C1000⟩ = .instr (.cellNoteInst 1 4 1 0 0) ∧ decode ⟨.cmd, 0x4433⟩ = .instr (.setFrequency 1 3 3)

/-- R111: header bit 5, line bit 6 and channel bits 6:4 change nothing; every byte is a valid token of its format. -/
def Obligations.IgnoredBitsChangeNothing : Prop :=
  ∀ s : State,
    (∀ b b' : Byte, b.toNat % 32 = b'.toNat % 32 → b.toNat / 64 = b'.toNat / 64 →
      exec (decodeHdr b) s = exec (decodeHdr b') s) ∧
    (∀ b b' : Byte, b.toNat % 64 = b'.toNat % 64 → b.toNat / 128 = b'.toNat / 128 →
      exec (decodeLine b) s = exec (decodeLine b') s) ∧
    (∀ b b' : Byte, b.toNat % 16 = b'.toNat % 16 → b.toNat / 128 = b'.toNat / 128 →
      exec (decodeChan b) s = exec (decodeChan b') s) ∧
    (∀ (f : Format) (n : Nat), f ≠ .cmd → n < 2 ^ f.width → ∃ i, decode ⟨f, n⟩ = .instr i)

/-- R70, R146: a cell written is read back at every alias of its address, and no other cell changes. -/
def Obligations.CellWriteReadsBackModuloBounds : Prop :=
  ∀ (p : Song) (s r c s' r' c' : Nat) (v : CellWord), Store.wf 0 p.prom = true →
    Store.wf 0 (writeCell p s r c v).prom = true ∧
    readCell (writeCell p s r c v) s' r' c' =
      if s % 32 = s' % 32 ∧ r % 64 = r' % 64 ∧ c % 9 = c' % 9 then v else readCell p s' r' c'
end

