-- ==== Sys2Proof/Laws/PerInstr.lean ====
section
/-! SUPPORT. The encoding of every instruction fits the width of its format (the table's "width"), constructor by
constructor. -/

namespace Sys2Proof.Laws.EncodingFits

/-- The bits of the encoding are a number below 2^width. -/
def Statement (i : Instr) : Prop := (encode i).bits < 2 ^ (encode i).fmt.width

theorem reset : Statement .reset := BitVec.isLt _

theorem load : Statement .load := BitVec.isLt _

theorem tick : Statement .tick := BitVec.isLt _

theorem wrctrl : ∀ a0, Statement (.wrctrl a0) := fun _ => BitVec.isLt _

theorem rdreg : ∀ a0, Statement (.rdreg a0) := fun _ => BitVec.isLt _

theorem rdregReservedReg : ∀ a0, Statement (.rdregReservedReg a0) := fun _ => BitVec.isLt _

theorem reservedOp5 : ∀ a0, Statement (.reservedOp5 a0) := fun _ => BitVec.isLt _

theorem reservedOp6 : ∀ a0, Statement (.reservedOp6 a0) := fun _ => BitVec.isLt _

theorem reservedOp7 : ∀ a0, Statement (.reservedOp7 a0) := fun _ => BitVec.isLt _

theorem reservedOp8F : ∀ a0 a1, Statement (.reservedOp8F a0 a1) := fun _ _ => BitVec.isLt _

theorem illegalOperand : ∀ a0 a1, Statement (.illegalOperand a0 a1) := fun _ _ => BitVec.isLt _

theorem hdr : ∀ a0 a1 a2 a3, Statement (.hdr a0 a1 a2 a3) := fun _ _ _ _ => BitVec.isLt _

theorem descByte : ∀ a0, Statement (.descByte a0) := fun _ => BitVec.isLt _

theorem descEnd : Statement .descEnd := by simp [Statement, encode, Format.width]

theorem islotEnd : Statement .islotEnd := by simp [Statement, encode, Format.width]

theorem islot : ∀ a0, Statement (.islot a0) := fun _ => BitVec.isLt _

theorem islotBad : ∀ a0, Statement (.islotBad a0) := fun _ => BitVec.isLt _

theorem irecByte : ∀ a0, Statement (.irecByte a0) := fun _ => BitVec.isLt _

theorem olen : ∀ a0, Statement (.olen a0) := fun _ => BitVec.isLt _

theorem oent : ∀ a0, Statement (.oent a0) := fun _ => BitVec.isLt _

theorem pofsUnused : Statement .pofsUnused := by simp [Statement, encode, Format.width]

theorem pofs : ∀ a0, Statement (.pofs a0) := fun _ => BitVec.isLt _

theorem line : ∀ a0 a1, Statement (.line a0 a1) := fun _ _ => BitVec.isLt _

theorem lineLast : ∀ a0 a1, Statement (.lineLast a0 a1) := fun _ _ => BitVec.isLt _

theorem chan : ∀ a0 a1, Statement (.chan a0 a1) := fun _ _ => BitVec.isLt _

theorem chanLast : ∀ a0 a1, Statement (.chanLast a0 a1) := fun _ _ => BitVec.isLt _

theorem noteNoparam : ∀ a0 a1 a2 a3, Statement (.noteNoparam a0 a1 a2 a3) := fun _ _ _ _ => BitVec.isLt _

theorem noteParam : ∀ a0 a1 a2 a3 a4, Statement (.noteParam a0 a1 a2 a3 a4) := fun _ _ _ _ _ => BitVec.isLt _

theorem param : ∀ a0, Statement (.param a0) := fun _ => BitVec.isLt _

theorem cellEmpty : ∀ a0 a1 a2 a3, Statement (.cellEmpty a0 a1 a2 a3) := fun _ _ _ _ => BitVec.isLt _

theorem cellKeyoff : ∀ a0 a1 a2 a3, Statement (.cellKeyoff a0 a1 a2 a3) := fun _ _ _ _ => BitVec.isLt _

theorem cellNote : ∀ a0 a1 a2 a3, Statement (.cellNote a0 a1 a2 a3) := fun _ _ _ _ => BitVec.isLt _

theorem cellNoteInst : ∀ a0 a1 a2 a3 a4, Statement (.cellNoteInst a0 a1 a2 a3 a4) := fun _ _ _ _ _ => BitVec.isLt _

theorem setInstrument : ∀ a0 a1 a2 a3, Statement (.setInstrument a0 a1 a2 a3) := fun _ _ _ _ => BitVec.isLt _

theorem setFrequency : ∀ a0 a1 a2, Statement (.setFrequency a0 a1 a2) := fun _ _ _ => BitVec.isLt _

theorem keyOn : ∀ a0, Statement (.keyOn a0) := fun _ => BitVec.isLt _

theorem keyOff : ∀ a0, Statement (.keyOff a0) := fun _ => BitVec.isLt _

end Sys2Proof.Laws.EncodingFits
end

