-- ==== Sys2Proof/Laws/State.lean ====
section
/-! SUPPORT. What each shared update of the state does to each field, so that no later proof unfolds one. -/

namespace Sys2Proof.Machine

variable (s : State)

/-! ### clearBoundaries: Both boundary flags, and nothing else (R25). -/

@[simp] theorem clearBoundaries_loop : (clearBoundaries s).loop = s.loop := rfl
@[simp] theorem clearBoundaries_seq : (clearBoundaries s).seq = s.seq := rfl
@[simp] theorem clearBoundaries_err : (clearBoundaries s).err = s.err := rfl
@[simp] theorem clearBoundaries_rowBoundary : (clearBoundaries s).rowBoundary = false := rfl
@[simp] theorem clearBoundaries_orderBoundary : (clearBoundaries s).orderBoundary = false := rfl
@[simp] theorem clearBoundaries_eos : (clearBoundaries s).eos = s.eos := rfl
@[simp] theorem clearBoundaries_order : (clearBoundaries s).order = s.order := rfl
@[simp] theorem clearBoundaries_row : (clearBoundaries s).row = s.row := rfl
@[simp] theorem clearBoundaries_tickcnt : (clearBoundaries s).tickcnt = s.tickcnt := rfl
@[simp] theorem clearBoundaries_curpat : (clearBoundaries s).curpat = s.curpat := rfl
@[simp] theorem clearBoundaries_song : (clearBoundaries s).song = s.song := rfl
@[simp] theorem clearBoundaries_pos : (clearBoundaries s).pos = s.pos := rfl
@[simp] theorem clearBoundaries_rom : (clearBoundaries s).rom = s.rom := rfl
@[simp] theorem clearBoundaries_romLen : (clearBoundaries s).romLen = s.romLen := rfl
@[simp] theorem clearBoundaries_engine : (clearBoundaries s).engine = s.engine := rfl
@[simp] theorem clearBoundaries_vars : (clearBoundaries s).vars = s.vars := rfl
@[simp] theorem clearBoundaries_chan : (clearBoundaries s).chan = s.chan := rfl
@[simp] theorem clearBoundaries_cmds : (clearBoundaries s).cmds = s.cmds := rfl
@[simp] theorem clearBoundaries_host : (clearBoundaries s).host = s.host := rfl
@[simp] theorem clearBoundaries_response : (clearBoundaries s).response = s.response := rfl

/-! ### seek: POS, and nothing else (R64). -/

@[simp] theorem seek_loop (off : Nat) : (seek off s).loop = s.loop := rfl
@[simp] theorem seek_seq (off : Nat) : (seek off s).seq = s.seq := rfl
@[simp] theorem seek_err (off : Nat) : (seek off s).err = s.err := rfl
@[simp] theorem seek_rowBoundary (off : Nat) : (seek off s).rowBoundary = s.rowBoundary := rfl
@[simp] theorem seek_orderBoundary (off : Nat) : (seek off s).orderBoundary = s.orderBoundary := rfl
@[simp] theorem seek_eos (off : Nat) : (seek off s).eos = s.eos := rfl
@[simp] theorem seek_order (off : Nat) : (seek off s).order = s.order := rfl
@[simp] theorem seek_row (off : Nat) : (seek off s).row = s.row := rfl
@[simp] theorem seek_tickcnt (off : Nat) : (seek off s).tickcnt = s.tickcnt := rfl
@[simp] theorem seek_curpat (off : Nat) : (seek off s).curpat = s.curpat := rfl
@[simp] theorem seek_song (off : Nat) : (seek off s).song = s.song := rfl
@[simp] theorem seek_pos (off : Nat) : (seek off s).pos = off := rfl
@[simp] theorem seek_rom (off : Nat) : (seek off s).rom = s.rom := rfl
@[simp] theorem seek_romLen (off : Nat) : (seek off s).romLen = s.romLen := rfl
@[simp] theorem seek_engine (off : Nat) : (seek off s).engine = s.engine := rfl
@[simp] theorem seek_vars (off : Nat) : (seek off s).vars = s.vars := rfl
@[simp] theorem seek_chan (off : Nat) : (seek off s).chan = s.chan := rfl
@[simp] theorem seek_cmds (off : Nat) : (seek off s).cmds = s.cmds := rfl
@[simp] theorem seek_host (off : Nat) : (seek off s).host = s.host := rfl
@[simp] theorem seek_response (off : Nat) : (seek off s).response = s.response := rfl

/-! ### respond: The response, and nothing else (R110). -/

@[simp] theorem respond_loop (c : RespCode) (d : Half) (w : List CmdWord) : (respond c d w s).loop = s.loop := rfl
@[simp] theorem respond_seq (c : RespCode) (d : Half) (w : List CmdWord) : (respond c d w s).seq = s.seq := rfl
@[simp] theorem respond_err (c : RespCode) (d : Half) (w : List CmdWord) : (respond c d w s).err = s.err := rfl
@[simp] theorem respond_rowBoundary (c : RespCode) (d : Half) (w : List CmdWord) : (respond c d w s).rowBoundary = s.rowBoundary := rfl
@[simp] theorem respond_orderBoundary (c : RespCode) (d : Half) (w : List CmdWord) : (respond c d w s).orderBoundary = s.orderBoundary := rfl
@[simp] theorem respond_eos (c : RespCode) (d : Half) (w : List CmdWord) : (respond c d w s).eos = s.eos := rfl
@[simp] theorem respond_order (c : RespCode) (d : Half) (w : List CmdWord) : (respond c d w s).order = s.order := rfl
@[simp] theorem respond_row (c : RespCode) (d : Half) (w : List CmdWord) : (respond c d w s).row = s.row := rfl
@[simp] theorem respond_tickcnt (c : RespCode) (d : Half) (w : List CmdWord) : (respond c d w s).tickcnt = s.tickcnt := rfl
@[simp] theorem respond_curpat (c : RespCode) (d : Half) (w : List CmdWord) : (respond c d w s).curpat = s.curpat := rfl
@[simp] theorem respond_song (c : RespCode) (d : Half) (w : List CmdWord) : (respond c d w s).song = s.song := rfl
@[simp] theorem respond_pos (c : RespCode) (d : Half) (w : List CmdWord) : (respond c d w s).pos = s.pos := rfl
@[simp] theorem respond_rom (c : RespCode) (d : Half) (w : List CmdWord) : (respond c d w s).rom = s.rom := rfl
@[simp] theorem respond_romLen (c : RespCode) (d : Half) (w : List CmdWord) : (respond c d w s).romLen = s.romLen := rfl
@[simp] theorem respond_engine (c : RespCode) (d : Half) (w : List CmdWord) : (respond c d w s).engine = s.engine := rfl
@[simp] theorem respond_vars (c : RespCode) (d : Half) (w : List CmdWord) : (respond c d w s).vars = s.vars := rfl
@[simp] theorem respond_chan (c : RespCode) (d : Half) (w : List CmdWord) : (respond c d w s).chan = s.chan := rfl
@[simp] theorem respond_cmds (c : RespCode) (d : Half) (w : List CmdWord) : (respond c d w s).cmds = s.cmds := rfl
@[simp] theorem respond_host (c : RespCode) (d : Half) (w : List CmdWord) : (respond c d w s).host = s.host := rfl
@[simp] theorem respond_response (c : RespCode) (d : Half) (w : List CmdWord) : (respond c d w s).response = some ⟨c, d, w⟩ := rfl

/-! ### clearSong: The song state, and nothing else (R37). -/

@[simp] theorem clearSong_loop : (clearSong s).loop = s.loop := rfl
@[simp] theorem clearSong_seq : (clearSong s).seq = s.seq := rfl
@[simp] theorem clearSong_err : (clearSong s).err = s.err := rfl
@[simp] theorem clearSong_rowBoundary : (clearSong s).rowBoundary = s.rowBoundary := rfl
@[simp] theorem clearSong_orderBoundary : (clearSong s).orderBoundary = s.orderBoundary := rfl
@[simp] theorem clearSong_eos : (clearSong s).eos = s.eos := rfl
@[simp] theorem clearSong_order : (clearSong s).order = s.order := rfl
@[simp] theorem clearSong_row : (clearSong s).row = s.row := rfl
@[simp] theorem clearSong_tickcnt : (clearSong s).tickcnt = s.tickcnt := rfl
@[simp] theorem clearSong_curpat : (clearSong s).curpat = s.curpat := rfl
@[simp] theorem clearSong_song : (clearSong s).song = Song.empty := rfl
@[simp] theorem clearSong_pos : (clearSong s).pos = s.pos := rfl
@[simp] theorem clearSong_rom : (clearSong s).rom = s.rom := rfl
@[simp] theorem clearSong_romLen : (clearSong s).romLen = s.romLen := rfl
@[simp] theorem clearSong_engine : (clearSong s).engine = s.engine := rfl
@[simp] theorem clearSong_vars : (clearSong s).vars = s.vars := rfl
@[simp] theorem clearSong_chan : (clearSong s).chan = s.chan := rfl
@[simp] theorem clearSong_cmds : (clearSong s).cmds = s.cmds := rfl
@[simp] theorem clearSong_host : (clearSong s).host = s.host := rfl
@[simp] theorem clearSong_response : (clearSong s).response = s.response := rfl

/-! ### clearPosition: The position and CURPAT, and nothing else (R29, R31). -/

@[simp] theorem clearPosition_loop : (clearPosition s).loop = s.loop := rfl
@[simp] theorem clearPosition_seq : (clearPosition s).seq = s.seq := rfl
@[simp] theorem clearPosition_err : (clearPosition s).err = s.err := rfl
@[simp] theorem clearPosition_rowBoundary : (clearPosition s).rowBoundary = s.rowBoundary := rfl
@[simp] theorem clearPosition_orderBoundary : (clearPosition s).orderBoundary = s.orderBoundary := rfl
@[simp] theorem clearPosition_eos : (clearPosition s).eos = s.eos := rfl
@[simp] theorem clearPosition_order : (clearPosition s).order = 0 := rfl
@[simp] theorem clearPosition_row : (clearPosition s).row = 0 := rfl
@[simp] theorem clearPosition_tickcnt : (clearPosition s).tickcnt = 0 := rfl
@[simp] theorem clearPosition_curpat : (clearPosition s).curpat = 0 := rfl
@[simp] theorem clearPosition_song : (clearPosition s).song = s.song := rfl
@[simp] theorem clearPosition_pos : (clearPosition s).pos = s.pos := rfl
@[simp] theorem clearPosition_rom : (clearPosition s).rom = s.rom := rfl
@[simp] theorem clearPosition_romLen : (clearPosition s).romLen = s.romLen := rfl
@[simp] theorem clearPosition_engine : (clearPosition s).engine = s.engine := rfl
@[simp] theorem clearPosition_vars : (clearPosition s).vars = s.vars := rfl
@[simp] theorem clearPosition_chan : (clearPosition s).chan = s.chan := rfl
@[simp] theorem clearPosition_cmds : (clearPosition s).cmds = s.cmds := rfl
@[simp] theorem clearPosition_host : (clearPosition s).host = s.host := rfl
@[simp] theorem clearPosition_response : (clearPosition s).response = s.response := rfl

/-! ### endRequest: The fields a request works with, and nothing else. -/

@[simp] theorem endRequest_loop : (endRequest s).loop = s.loop := rfl
@[simp] theorem endRequest_seq : (endRequest s).seq = s.seq := rfl
@[simp] theorem endRequest_err : (endRequest s).err = s.err := rfl
@[simp] theorem endRequest_rowBoundary : (endRequest s).rowBoundary = s.rowBoundary := rfl
@[simp] theorem endRequest_orderBoundary : (endRequest s).orderBoundary = s.orderBoundary := rfl
@[simp] theorem endRequest_eos : (endRequest s).eos = s.eos := rfl
@[simp] theorem endRequest_order : (endRequest s).order = s.order := rfl
@[simp] theorem endRequest_row : (endRequest s).row = s.row := rfl
@[simp] theorem endRequest_tickcnt : (endRequest s).tickcnt = s.tickcnt := rfl
@[simp] theorem endRequest_curpat : (endRequest s).curpat = s.curpat := rfl
@[simp] theorem endRequest_song : (endRequest s).song = s.song := rfl
@[simp] theorem endRequest_pos : (endRequest s).pos = s.pos := rfl
@[simp] theorem endRequest_rom : (endRequest s).rom = s.rom := rfl
@[simp] theorem endRequest_romLen : (endRequest s).romLen = s.romLen := rfl
@[simp] theorem endRequest_engine : (endRequest s).engine = .idle := rfl
@[simp] theorem endRequest_vars : (endRequest s).vars = LoadVars.initial := rfl
@[simp] theorem endRequest_chan : (endRequest s).chan = 0 := rfl
@[simp] theorem endRequest_cmds : (endRequest s).cmds = [] := rfl
@[simp] theorem endRequest_host : (endRequest s).host = s.host := rfl
@[simp] theorem endRequest_response : (endRequest s).response = s.response := rfl

/-! ### emit: The command list, and nothing else (R181). -/

@[simp] theorem emit_loop (w : CmdWord) : (emit w s).loop = s.loop := rfl
@[simp] theorem emit_seq (w : CmdWord) : (emit w s).seq = s.seq := rfl
@[simp] theorem emit_err (w : CmdWord) : (emit w s).err = s.err := rfl
@[simp] theorem emit_rowBoundary (w : CmdWord) : (emit w s).rowBoundary = s.rowBoundary := rfl
@[simp] theorem emit_orderBoundary (w : CmdWord) : (emit w s).orderBoundary = s.orderBoundary := rfl
@[simp] theorem emit_eos (w : CmdWord) : (emit w s).eos = s.eos := rfl
@[simp] theorem emit_order (w : CmdWord) : (emit w s).order = s.order := rfl
@[simp] theorem emit_row (w : CmdWord) : (emit w s).row = s.row := rfl
@[simp] theorem emit_tickcnt (w : CmdWord) : (emit w s).tickcnt = s.tickcnt := rfl
@[simp] theorem emit_curpat (w : CmdWord) : (emit w s).curpat = s.curpat := rfl
@[simp] theorem emit_song (w : CmdWord) : (emit w s).song = s.song := rfl
@[simp] theorem emit_pos (w : CmdWord) : (emit w s).pos = s.pos := rfl
@[simp] theorem emit_rom (w : CmdWord) : (emit w s).rom = s.rom := rfl
@[simp] theorem emit_romLen (w : CmdWord) : (emit w s).romLen = s.romLen := rfl
@[simp] theorem emit_engine (w : CmdWord) : (emit w s).engine = s.engine := rfl
@[simp] theorem emit_vars (w : CmdWord) : (emit w s).vars = s.vars := rfl
@[simp] theorem emit_chan (w : CmdWord) : (emit w s).chan = s.chan := rfl
@[simp] theorem emit_cmds (w : CmdWord) : (emit w s).cmds = s.cmds ++ [w] := rfl
@[simp] theorem emit_host (w : CmdWord) : (emit w s).host = s.host := rfl
@[simp] theorem emit_response (w : CmdWord) : (emit w s).response = s.response := rfl

/-! ### faultEntry: Fault entry: what it writes, and that CTRL, POS and EOS are kept (R243). -/

@[simp] theorem faultEntry_loop (e : ErrCode) : (faultEntry e s).loop = s.loop := rfl
@[simp] theorem faultEntry_seq (e : ErrCode) : (faultEntry e s).seq = .idle := rfl
@[simp] theorem faultEntry_err (e : ErrCode) : (faultEntry e s).err = e := rfl
@[simp] theorem faultEntry_rowBoundary (e : ErrCode) : (faultEntry e s).rowBoundary = false := rfl
@[simp] theorem faultEntry_orderBoundary (e : ErrCode) : (faultEntry e s).orderBoundary = false := rfl
@[simp] theorem faultEntry_eos (e : ErrCode) : (faultEntry e s).eos = s.eos := rfl
@[simp] theorem faultEntry_order (e : ErrCode) : (faultEntry e s).order = 0 := rfl
@[simp] theorem faultEntry_row (e : ErrCode) : (faultEntry e s).row = 0 := rfl
@[simp] theorem faultEntry_tickcnt (e : ErrCode) : (faultEntry e s).tickcnt = 0 := rfl
@[simp] theorem faultEntry_curpat (e : ErrCode) : (faultEntry e s).curpat = 0 := rfl
@[simp] theorem faultEntry_song (e : ErrCode) : (faultEntry e s).song = Song.empty := rfl
@[simp] theorem faultEntry_pos (e : ErrCode) : (faultEntry e s).pos = s.pos := rfl
@[simp] theorem faultEntry_rom (e : ErrCode) : (faultEntry e s).rom = s.rom := rfl
@[simp] theorem faultEntry_romLen (e : ErrCode) : (faultEntry e s).romLen = s.romLen := rfl
@[simp] theorem faultEntry_engine (e : ErrCode) : (faultEntry e s).engine = .idle := rfl
@[simp] theorem faultEntry_vars (e : ErrCode) : (faultEntry e s).vars = LoadVars.initial := rfl
@[simp] theorem faultEntry_chan (e : ErrCode) : (faultEntry e s).chan = 0 := rfl
@[simp] theorem faultEntry_cmds (e : ErrCode) : (faultEntry e s).cmds = [] := rfl
@[simp] theorem faultEntry_host (e : ErrCode) : (faultEntry e s).host = s.host := rfl
@[simp] theorem faultEntry_response (e : ErrCode) : (faultEntry e s).response = some ⟨.loadFailed, e.code.setWidth 16, []⟩ := rfl

end Sys2Proof.Machine
end

