-- ==== Sys2Proof/Laws/Steps.lean ====
section
/-! SUPPORT. What the shared operations can do, said once: the reader, sequencing, the end of a request, and how a
step inside a request meets the dispatch. -/

namespace Sys2Proof.Machine

/-! ### The reader -/

theorem readByte_inside {s : State} (h : s.pos < s.romLen) :
    readByte s = (memRead s s.pos, { s with pos := s.pos + 1 }) := by
  simp [readByte, h]

theorem readByte_past {s : State} (h : s.romLen ≤ s.pos) : readByte s = (0, { s with eos := true }) := by
  simp [readByte, Nat.not_lt.2 h]

/-- A byte read moves POS and EOS only. -/
theorem readByte_frame (s : State) :
    (readByte s).2 = { s with pos := (readByte s).2.pos, eos := (readByte s).2.eos } := by
  simp only [readByte]; split <;> rfl

/-- A word read moves POS and EOS only. -/
theorem readWord_frame (s : State) :
    (readWord s).2 = { s with pos := (readWord s).2.pos, eos := (readWord s).2.eos } := by
  have h1 := readByte_frame s
  have h2 := readByte_frame (readByte s).2
  simp only [readWord]
  rw [h2, h1]

/-! ### Sequencing -/

@[simp] theorem andThen_next (s : State) (f : State → Result) : andThen (.next s) f = f s := rfl

@[simp] theorem andThen_fault (r : Fault) (f : State → Result) : andThen (.fault r) f = .fault r := rfl

@[simp] theorem andThen_refused (r : Refusal) (f : State → Result) : andThen (.refused r) f = .refused r := rfl

/-- A sequence that goes on went through a next state. -/
theorem andThen_eq_next {o : Result} {f : State → Result} {t : State} :
    andThen o f = .next t ↔ ∃ s, o = .next s ∧ f s = .next t := by
  cases o <;> simp [andThen]

/-! ### Running a request to its end -/

theorem runRequest_idle {fuel : Nat} {s : State} (h : s.engine = .idle) : runRequest (fuel + 1) s = .next s := by
  simp [runRequest, h]

theorem runRequest_step {fuel : Nat} {s : State} (h : s.engine ≠ .idle) :
    runRequest (fuel + 1) s = andThen (innerStep s) (runRequest fuel) := by
  simp only [runRequest, if_neg h]
  cases innerStep s <;> rfl

/-- A request that ends, ends between requests. -/
theorem runRequest_ends {fuel : Nat} {s t : State} (h : runRequest fuel s = .next t) : t.engine = .idle := by
  induction fuel generalizing s with
  | zero => simp [runRequest] at h
  | succ n ih =>
    by_cases hs : s.engine = .idle
    · rw [runRequest_idle hs] at h; cases h; exact hs
    · rw [runRequest_step hs, andThen_eq_next] at h
      obtain ⟨u, _, hu⟩ := h
      exact ih hu

/-- A property every inner step keeps holds at the end of the request. -/
theorem runRequest_keeps {P : State → Prop} (hP : ∀ s t, P s → innerStep s = .next t → P t)
    {fuel : Nat} {s t : State} (hs : P s) (h : runRequest fuel s = .next t) : P t := by
  induction fuel generalizing s with
  | zero => simp [runRequest] at h
  | succ n ih =>
    by_cases he : s.engine = .idle
    · rw [runRequest_idle he] at h; cases h; exact hs
    · rw [runRequest_step he, andThen_eq_next] at h
      obtain ⟨u, hu, h⟩ := h
      exact ih (hP s u hs hu) h

/-- The meaning an instruction has inside a request is the meaning exec gives it. -/
theorem runInner_eq_exec {i : Instr} (h : (encode i).fmt ≠ .req) (s : State) : runInner i s = exec i s := by
  cases i <;> first | rfl | exact absurd rfl h

end Sys2Proof.Machine
end

