-- ==== Sys2Proof/Laws/Store.lean ====
section
/-! SUPPORT. The laws of the canonical stores: read after write, and that every operation keeps the form. -/

namespace Sys2Proof.Machine

variable {α : Type} (d : α)

@[simp] theorem Store.read_nil (a : Nat) : Store.read d ([] : List (Nat × α)) a = d := rfl

/-- A key below every listed key is not listed. -/
theorem Store.read_below {m : List (Nat × α)} {a : Nat} (h : ∀ e ∈ m, a < e.1) : Store.read d m a = d := by
  induction m with
  | nil => rfl
  | cons e m ih =>
    have h1 := h e (by simp)
    simp only [Store.read]
    rw [if_neg (by omega)]
    exact ih fun x hx => h x (by simp [hx])

variable [DecidableEq α]

@[simp] theorem Store.wf_nil : Store.wf d ([] : List (Nat × α)) = true := rfl

theorem Store.wf_cons (k : Nat) (x : α) (m : List (Nat × α)) :
    Store.wf d ((k, x) :: m) = true ↔ x ≠ d ∧ (∀ e ∈ m, k < e.1) ∧ Store.wf d m = true := by
  simp [Store.wf, and_assoc]

/-- A write leaves every other key as it was. -/
theorem Store.read_write_other {m : List (Nat × α)} {a b : Nat} (v : α) (h : b ≠ a) :
    Store.read d (Store.write d m a v) b = Store.read d m b := by
  induction m with
  | nil => simp only [Store.write]; split <;> simp [Store.read, h.symm]
  | cons e m ih =>
    obtain ⟨k, x⟩ := e
    simp only [Store.write]
    split
    · split <;> simp [Store.read, h.symm]
    · split
      · rename_i hk
        split <;> simp [Store.read, ← hk, h.symm]
      · simp only [Store.read, ih]

/-- The keys of a store after a write. -/
theorem Store.mem_write {m : List (Nat × α)} {a : Nat} {v : α} {e : Nat × α}
    (h : e ∈ Store.write d m a v) : e = (a, v) ∨ e ∈ m := by
  induction m with
  | nil => simp only [Store.write] at h; split at h <;> simp_all
  | cons f m ih =>
    obtain ⟨k, x⟩ := f
    simp only [Store.write] at h
    split at h
    · split at h <;> simp_all
    · split at h
      · split at h
        · simp [h]
        · rcases List.mem_cons.1 h with h | h <;> simp [h]
      · rcases List.mem_cons.1 h with rfl | h
        · simp
        · rcases ih h with h | h <;> simp [h]

/-- A write keeps the canonical form. -/
theorem Store.wf_write {m : List (Nat × α)} (a : Nat) (v : α) (h : Store.wf d m = true) :
    Store.wf d (Store.write d m a v) = true := by
  induction m with
  | nil => simp only [Store.write]; split <;> simp_all [Store.wf]
  | cons e m ih =>
    obtain ⟨k, x⟩ := e
    have ⟨hx, hk, hm⟩ := (Store.wf_cons d k x m).1 h
    simp only [Store.write]
    split
    · rename_i hak
      split
      · exact h
      · rename_i hv
        refine (Store.wf_cons d _ _ _).2 ⟨hv, fun e he => ?_, h⟩
        rcases List.mem_cons.1 he with rfl | he
        · exact hak
        · exact Nat.lt_trans hak (hk e he)
    · split
      · rename_i hak
        split
        · exact hm
        · rename_i hv
          exact (Store.wf_cons d _ _ _).2 ⟨hv, fun e he => hak ▸ hk e he, hm⟩
      · refine (Store.wf_cons d _ _ _).2 ⟨hx, fun e he => ?_, ih hm⟩
        rcases Store.mem_write d he with rfl | he
        · simp only; omega
        · exact hk e he

/-- A write is read back at its key. -/
theorem Store.read_write_same {m : List (Nat × α)} (a : Nat) (v : α) (h : Store.wf d m = true) :
    Store.read d (Store.write d m a v) a = v := by
  induction m with
  | nil => simp only [Store.write]; split <;> simp_all [Store.read]
  | cons e m ih =>
    obtain ⟨k, x⟩ := e
    have ⟨_, hk, hm⟩ := (Store.wf_cons d k x m).1 h
    simp only [Store.write]
    split
    · rename_i hak
      split
      · rename_i hv
        subst hv
        exact Store.read_below _ fun e he => by
          rcases List.mem_cons.1 he with rfl | he
          · exact hak
          · exact Nat.lt_trans hak (hk e he)
      · simp [Store.read]
    · split
      · rename_i hak
        subst hak
        split
        · rename_i hv
          subst hv
          exact Store.read_below _ hk
        · simp [Store.read]
      · rename_i h1 h2
        simp only [Store.read, ih hm, if_neg (fun e : k = a => h2 e.symm)]

/-- The keys of an image placed from an address on lie inside it. -/
theorem Memory.mem_ofBytes {bytes : List Byte} {a : Nat} {e : Host.Cell} (h : e ∈ Memory.ofBytes a bytes) :
    a ≤ e.1 ∧ e.1 < a + bytes.length := by
  induction bytes generalizing a with
  | nil => simp [Memory.ofBytes] at h
  | cons b bs ih =>
    simp only [Memory.ofBytes] at h
    split at h
    · have := ih h; simp only [List.length_cons]; omega
    · rcases List.mem_cons.1 h with rfl | h
      · simp
      · have := ih h; simp only [List.length_cons]; omega

/-- A placed image is in canonical form. -/
theorem Memory.wf_ofBytes (a : Nat) (bytes : List Byte) : Memory.wf (Memory.ofBytes a bytes) = true := by
  induction bytes generalizing a with
  | nil => rfl
  | cons b bs ih =>
    simp only [Memory.ofBytes]
    split
    · exact ih _
    · rename_i hb
      exact (Store.wf_cons 0 _ _ _).2 ⟨hb, fun e he => (Memory.mem_ofBytes he).1, ih _⟩

/-- Placing one byte keeps the canonical form. -/
theorem Memory.wf_write {m : List Host.Cell} (a : Nat) (b : Byte) (h : Memory.wf m = true) :
    Memory.wf (Memory.write m a b) = true := Store.wf_write 0 a b h

/-- The ROM after reset is in canonical form. -/
theorem Memory.wf_reset : Memory.wf State.reset.rom = true := rfl

/-- A cell write keeps the pattern ROM's canonical form. -/
theorem wf_writeCell {p : Song} (s r c : Nat) (v : CellWord) (h : Store.wf 0 p.prom = true) :
    Store.wf 0 (writeCell p s r c v).prom = true := Store.wf_write 0 _ v h

end Sys2Proof.Machine
end

