-- ==== Sys2Proof/Tests/Slice0.lean ====
section
/-! SUPPORT. Tests: ill-formed operands, words written out from the spec's encodings, one-step results whose expected
values stand in spec/95_test_vectors.md or are computed by hand from the rule named, and a witness for the hypotheses
of every statement that has some. -/

namespace Sys2Proof.Tests

-- One theorem after another: kernel evaluation in many threads at once runs out of them.
set_option Elab.async false

open Sys2Proof.Machine

/-! ### Ill-formed operands: one per check of wellFormed -/

theorem test_illformed_rdregReservedReg : (Instr.rdregReservedReg 7).wellFormed = false := by decide
theorem test_illformed_reservedOp8F : (Instr.reservedOp8F 7 0).wellFormed = false := by decide
theorem test_illformed_illegalOperand_zero : (Instr.illegalOperand 2 0).wellFormed = false := by decide
theorem test_illformed_illegalOperand_wrctrl : (Instr.illegalOperand 3 1).wellFormed = false := by decide
theorem test_illformed_illegalOperand_rdreg : (Instr.illegalOperand 4 15).wellFormed = false := by decide
theorem test_illformed_illegalOperand_op : (Instr.illegalOperand 5 1).wellFormed = false := by decide
theorem test_illformed_descByte : (Instr.descByte 0).wellFormed = false := by decide
theorem test_illformed_islot : (Instr.islot 0).wellFormed = false := by decide
theorem test_illformed_islotBad : (Instr.islotBad 31).wellFormed = false := by decide
theorem test_illformed_pofs : (Instr.pofs 0).wellFormed = false := by decide
theorem test_illformed_noteParam : (Instr.noteParam false 4 1 1 0).wellFormed = false := by decide
theorem test_illformed_cellNote_keyoff : (Instr.cellNote 4 15 0 0).wellFormed = false := by decide
theorem test_illformed_cellNoteInst_inst : (Instr.cellNoteInst 0 4 1 0 0).wellFormed = false := by decide
theorem test_illformed_cellNoteInst_note : (Instr.cellNoteInst 1 4 0 0 0).wellFormed = false := by decide
theorem test_illformed_setInstrument_channel : (Instr.setInstrument 9 true 1 0).wellFormed = false := by decide
theorem test_illformed_setInstrument_zero : (Instr.setInstrument 0 true 0 0).wellFormed = false := by decide
theorem test_illformed_setFrequency_note : (Instr.setFrequency 0 4 15).wellFormed = false := by decide
theorem test_illformed_setFrequency_channel : (Instr.setFrequency 9 4 1).wellFormed = false := by decide
theorem test_illformed_keyOn : (Instr.keyOn 9).wellFormed = false := by decide
theorem test_illformed_keyOff : (Instr.keyOff 15).wellFormed = false := by decide

/-! ### A word of every constructor, written out from its encoding -/

/-- R109, R116. -/
theorem test_decode_requests :
    decode ⟨.req, 0x0000⟩ = .instr .reset ∧ decode ⟨.req, 0x1000⟩ = .instr .load ∧
    decode ⟨.req, 0x2000⟩ = .instr .tick ∧ decode ⟨.req, 0x3001⟩ = .instr (.wrctrl true) ∧
    decode ⟨.req, 0x3000⟩ = .instr (.wrctrl false) ∧ decode ⟨.req, 0x4003⟩ = .instr (.rdreg .order) ∧
    decode ⟨.req, 0x4007⟩ = .instr (.rdreg .curpat) := by decide

/-- R113. -/
theorem test_decode_refused_requests :
    decode ⟨.req, 0x4008⟩ = .instr (.rdregReservedReg 8) ∧ decode ⟨.req, 0x5123⟩ = .instr (.reservedOp5 0x123) ∧
    decode ⟨.req, 0x6123⟩ = .instr (.reservedOp6 0x123) ∧ decode ⟨.req, 0x7123⟩ = .instr (.reservedOp7 0x123) ∧
    decode ⟨.req, 0x8123⟩ = .instr (.reservedOp8F 8 0x123) ∧ decode ⟨.req, 0xFFFF⟩ = .instr (.reservedOp8F 15 0xFFF) ∧
    decode ⟨.req, 0x0001⟩ = .instr (.illegalOperand 0 1) ∧ decode ⟨.req, 0x3002⟩ = .instr (.illegalOperand 3 2) ∧
    decode ⟨.req, 0x4010⟩ = .instr (.illegalOperand 4 0x10) := by decide

/-- R92, R93: 1 1 0 00001. -/
theorem test_decode_header_and_description :
    decode ⟨.hdr, 0b11000001⟩ = .instr (.hdr true true false 1) ∧
    decode ⟨.hdr, 0b00111111⟩ = .instr (.hdr false false true 31) ∧
    decode ⟨.desc, 0x48⟩ = .instr (.descByte 0x48) ∧ decode ⟨.desc, 0⟩ = .instr .descEnd := by decide

/-- R94, R95, W2. -/
theorem test_decode_instrument_table :
    decode ⟨.islot, 0⟩ = .instr .islotEnd ∧ decode ⟨.islot, 0x1F⟩ = .instr (.islot 31) ∧
    decode ⟨.islot, 0x20⟩ = .instr (.islotBad 0x20) ∧ decode ⟨.irec, 0xA0⟩ = .instr (.irecByte 0xA0) := by decide

/-- R96, R97. -/
theorem test_decode_order_and_offsets :
    decode ⟨.olen, 2⟩ = .instr (.olen 2) ∧ decode ⟨.oent, 0x20⟩ = .instr (.oent 0x20) ∧
    decode ⟨.pofs, 0⟩ = .instr .pofsUnused ∧ decode ⟨.pofs, 0x61⟩ = .instr (.pofs 0x61) := by decide

/-- R99, R100: 1 0 000101, 0 1 111111, 0 111 1001, 1 000 1010. -/
theorem test_decode_line_and_channel :
    decode ⟨.line, 0b10000101⟩ = .instr (.lineLast false 5) ∧ decode ⟨.line, 0b01111111⟩ = .instr (.line true 63) ∧
    decode ⟨.chan, 0b01111001⟩ = .instr (.chan 7 9) ∧ decode ⟨.chan, 0b10001010⟩ = .instr (.chanLast 0 10) := by decide

/-- R101, R103: 0 100 0001 0001 0000, and 1 111 1110 1111 0001. -/
theorem test_decode_note :
    decode ⟨.note, 0b0100000100010000⟩ = .instr (.noteNoparam false 4 1 1) ∧
    decode ⟨.note, 0b1111111011110001⟩ = .instr (.noteParam true 7 14 15 1) ∧
    decode ⟨.param, 0x7F⟩ = .instr (.param 0x7F) := by decide

/-- R105, and the cell words of 95_test_vectors 2.3. -/
theorem test_decode_cell :
    decode ⟨.cell, 0x2D0320⟩ = .instr (.cellEmpty 5 5 3 0x20) ∧
    decode ⟨.cell, 0x18F000⟩ = .instr (.cellKeyoff 3 0 0 0) ∧
    decode ⟨.cell, 0x033000⟩ = .instr (.cellNote 3 3 0 0) ∧
    decode ⟨.cell, 0xFFE100⟩ = .instr (.cellNoteInst 31 7 14 1 0) := by decide

/-- R106 to R108, and the headers of 95_test_vectors 2.6. -/
theorem test_decode_commands :
    decode ⟨.cmd, 0xAA000000000000000000A0203F⟩ = .instr (.setInstrument 8 true 31 0xAA000000000000000000A0) ∧
    decode ⟨.cmd, 0x4433⟩ = .instr (.setFrequency 1 3 3) ∧ decode ⟨.cmd, 0xA000⟩ = .instr (.keyOn 8) ∧
    decode ⟨.cmd, 0xCC00⟩ = .instr (.keyOff 3) := by decide

/-- R114, and a number too wide. -/
theorem test_decode_rejections :
    decode ⟨.cmd, 0xA400⟩ = .rejected .channelOutOfRange ∧ decode ⟨.cmd, 0x0020⟩ = .rejected .instrumentZero ∧
    decode ⟨.cmd, 0x0041⟩ = .rejected .reservedArgBits ∧ decode ⟨.cmd, 0x404F⟩ = .rejected .noteOutOfRange ∧
    decode ⟨.cmd, 0x18000⟩ = .rejected .dataOutsideSetInstrument ∧ decode ⟨.hdr, 256⟩ = .rejected .tooWide := by decide

/-- R116: the encoder on the spec's examples. -/
theorem test_encode_examples :
    encode (.wrctrl true) = ⟨.req, 0x3001⟩ ∧ encode (.rdreg .row) = ⟨.req, 0x4004⟩ ∧
    encode (.setInstrument 0 true 1 0) = ⟨.cmd, 0x0021⟩ ∧ encode (.setFrequency 0 4 1) = ⟨.cmd, 0x4041⟩ ∧
    encode (.keyOn 1) = ⟨.cmd, 0x8400⟩ ∧ encode (.cellNoteInst 3 2 5 10 0x7F) = ⟨.cell, 0x1A5A7F⟩ := by decide

/-! ### States for the one-step tests -/

/-- A field of a next state. -/
def see {α : Type} (f : State → α) : Result → Option α
  | .next s => some (f s)
  | .fault _ => none
  | .refused _ => none

/-- The record A0 .. AA of program P1. -/
def recordA : Vector Byte 11 := #v[0xA0, 0xA1, 0xA2, 0xA3, 0xA4, 0xA5, 0xA6, 0xA7, 0xA8, 0xA9, 0xAA]

/-- Program P1's module text (95_test_vectors 3.1). -/
def textP1 : List ModuleItem :=
  [.org 0x11, .db [0x02, 0x01], .db recordA.toList, .db [0x00, 0x01, 0x02], .dw [0, 0, 0x61],
    .org 0x61, .line 0 true, .cell 0 1 4 1 0 0 true]

/-- A state whose ROM holds these bytes and whose host issues this request. -/
def withRom (bytes : List Byte) (w : ReqWord) : State :=
  { State.reset with rom := Memory.ofBytes 0 bytes, romLen := bytes.length, host := [.request w] }

/-- The song of P1 with a second order entry, 0x22, which names slot 2 too (R70). -/
def songA : Song :=
  { Song.empty with
    speed := 2, songlen := 2, ordlist := (Song.empty.ordlist.set 0 2).set 1 0x22
    pofs := Song.empty.pofs.set 2 0x61, irom := Song.empty.irom.set 0 recordA
    iloaded := Song.empty.iloaded.set 0 true, prom := [(1152, 0x0C1000)] }

/-- A state PLAYING that song, at a position. -/
def playing (order : BitVec 8) (row : BitVec 6) (tickcnt : BitVec 5) : State :=
  { State.reset with seq := .playing, song := songA, order := order, row := row, tickcnt := tickcnt, curpat := 2 }

/-- A state inside a LOAD, at a phase, POS 0, over a ROM. -/
def loading (p : Phase) (bytes : List Byte) : State :=
  { State.reset with rom := Memory.ofBytes 0 bytes, romLen := bytes.length, engine := .load p }

/-! ### Requests -/

/-- R211. -/
theorem test_reset_in_playing :
    see (fun s => (s.loop, s.seq, s.song.speed, s.response)) (exec .reset { playing 1 5 1 with loop := true }) =
      some (false, .idle, 0, some ⟨.ok, 0, []⟩) := by decide +kernel

/-- P1: the module text assembles to the image of 3.1, 101 bytes, the pattern at 0x61. -/
theorem test_assemble_p1 :
    (assemble textP1).length = 101 ∧ (assemble textP1).drop 0x61 = [0x80, 0x80, 0x41, 0x10] ∧
    (assemble textP1).getD 0x25 0 = 0x61 := by decide +kernel

/-- P1 loads: response OK 0x0001, SPEED 2, CURPAT 2, PROM[2][0][0] = 0x0C1000 (R130, W1). -/
theorem test_load_p1 :
    see (fun s => (s.response, s.seq, s.song.speed, s.curpat)) (step (withRom (assemble textP1) 0x1000)) =
      some (some ⟨.ok, 0x0001, []⟩, .playing, 2, 2) ∧
    see (fun s => (s.song.irom[0], s.song.prom)) (step (withRom (assemble textP1) 0x1000)) =
      some (recordA, [(1152, 0x0C1000)]) := by decide +kernel

/-- P1 cut to 0x63 bytes: LOAD_FAILED 1, STATUS 0x0104 (R149, 2.4). -/
theorem test_load_truncated :
    see (fun s => (s.response, s.status, s.song.speed, s.song.prom))
      (step (withRom ((assemble textP1).take 0x63) 0x1000)) =
      some (some ⟨.loadFailed, 1, []⟩, 0x0104, 0, []) := by decide +kernel

/-- The first TICK of P1: the three commands of W7 and DATA 0x0001. -/
theorem test_tick_first :
    see (fun s => (s.response, s.tickcnt)) (exec .tick (playing 0 0 0)) =
      some (some ⟨.ok, 0x0001, [0xAAA9A8A7A6A5A4A3A2A1A00021, 0x4041, 0x8000]⟩, 1) := by decide +kernel

/-- The last TICK, LOOP 0: DATA 0x0062, ORDER kept (R180). -/
theorem test_tick_ends_song :
    see (fun s => (s.response, s.seq, s.order, s.row)) (exec .tick (playing 1 63 1)) =
      some (some ⟨.ok, 0x0062, []⟩, .ended, 1, 0) := by decide +kernel

/-- R212 and 2.7. -/
theorem test_wrctrl :
    see (fun s => (s.loop, s.response)) (exec (.wrctrl true) (playing 0 0 0)) =
      some (true, some ⟨.ok, 0x0001, []⟩) := by decide +kernel

/-- R213 and 2.7: register 6 is SONGLEN. -/
theorem test_rdreg :
    see (fun s => s.response) (exec (.rdreg .songlen) (playing 0 0 0)) = some (some ⟨.ok, 2, []⟩) := by decide +kernel

/-- 0x2001 is refused and the position does not move (R215). -/
theorem test_illegal_tick :
    see (fun s => (s.response, s.tickcnt)) (exec (decodeReq 0x2001) (playing 0 0 0)) =
      some (some ⟨.illegal, 0, []⟩, 0) := by decide +kernel

/-- 0x5000, 0x6000, 0x7000, 0x8123 and 0x4008 are refused (2.7). -/
theorem test_reserved_requests :
    ([0x5000, 0x6000, 0x7000, 0x8123, 0x4008].map fun w : ReqWord =>
      see (fun s => s.response) (exec (decodeReq w) State.reset)) =
      List.replicate 5 (some (some ⟨.illegal, 0, []⟩)) := by decide +kernel

/-! ### The reader (95_test_vectors 2.1) -/

theorem test_readWord_straddles_end :
    ((readWord { loading .pofs [0x34, 0x12] with pos := 1 }).1,
      (readWord { loading .pofs [0x34, 0x12] with pos := 1 }).2.pos,
      (readWord { loading .pofs [0x34, 0x12] with pos := 1 }).2.eos) = (0x0012, 2, true) := by decide +kernel

theorem test_readWord_little_endian : (readWord (loading .pofs [0x34, 0x12])).1 = 0x1234 := by decide +kernel

/-! ### Tokens -/

/-- R133: 0xC1. -/
theorem test_hdr :
    see (fun s => (s.song.slowTimer, s.song.speed, s.engine)) (step (loading .hdr [0xC1])) =
      some (true, 1, .load .desc) := by decide +kernel

theorem test_desc :
    see (fun s => (s.pos, s.engine)) (step (loading .desc [0x48])) = some (1, .load .desc) ∧
    see (fun s => (s.pos, s.engine)) (step (loading .desc [0])) = some (1, .load .islot) := by decide +kernel

/-- R135, R137: n = 31 is entry 30; R136: 32 is refused before its record. -/
theorem test_islot :
    see (fun s => (s.vars.entry, s.engine)) (step (loading .islot [31])) = some (30, .load .irec) ∧
    see (fun s => s.engine) (step (loading .islot [0])) = some (.load .olen) ∧
    see (fun s => (s.err, s.pos)) (step (loading .islot [32, 1])) = some (.malformedModule, 1) := by decide +kernel

/-- R137: the eleventh byte loads the instrument. -/
theorem test_irec_last_byte :
    see (fun s => (s.song.irom[3][10], s.song.iloaded[3], s.engine))
      (exec (.irecByte 0x5A) { State.reset with vars := { LoadVars.initial with entry := 3, byteNo := 10 } }) =
      some (0x5A, true, .load .islot) := by decide +kernel

/-- R138. -/
theorem test_olen_oent :
    see (fun s => (s.song.songlen, s.engine)) (exec (.olen 0) State.reset) = some (0, .load .pofs) ∧
    see (fun s => (s.song.ordlist[1], s.engine))
      (exec (.oent 0x20) { State.reset with song := songA, vars := { LoadVars.initial with orderNo := 1 } }) =
      some (0x20, .load .pofs) := by decide +kernel

/-- R139: bytes 0x61 0x00 give 0x0061; the slot walk follows word 31. -/
theorem test_pofs :
    see (fun s => (s.song.pofs[0], s.engine)) (step (loading .pofs [0x61, 0])) = some (0x0061, .load .pofs) ∧
    see (fun s => (s.song.pofs[31], s.engine))
      (exec .pofsUnused { State.reset with vars := { LoadVars.initial with slot := 31 } }) =
      some (0, .load .slot) := by decide +kernel

/-- R142, W3: 0x85. -/
theorem test_line :
    see (fun s => (s.vars.row, s.vars.lineLast)) (step (loading .line [0x85])) = some (5, true) ∧
    see (fun s => (s.vars.row, s.vars.lineLast)) (step (loading .line [0x40])) = some (0, false) := by decide +kernel

/-- R143, W4: 0x8A is channel 1 and the last, 0x0F is channel 6. -/
theorem test_chan :
    see (fun s => (s.vars.chan, s.vars.chanLast)) (step (loading .chan [0x8A])) = some (1, true) ∧
    see (fun s => (s.vars.chan, s.vars.chanLast)) (step (loading .chan [0x0F])) = some (6, false) := by decide +kernel

/-- R144, R146: 0x80 0xF0 gives INST 31; the cell stands at (0, 0, 0). -/
theorem test_note_noparam :
    see (fun s => (s.song.prom, s.engine)) (step (loading .note [0x80, 0xF0])) =
      some ([(0, 0xF80000)], .load .chan) := by decide +kernel

/-- R145: 0x25 0x3A waits for its parameter; 0x7F completes {3, 2, 5, 10, 0x7F}. -/
theorem test_note_param :
    see (fun s => (s.song.prom, s.engine)) (step (loading .note [0x25, 0x3A])) = some ([], .load .param) ∧
    see (fun s => s.song.prom) (exec (.param 0x7F)
      { State.reset with vars := { LoadVars.initial with inst := 3, oct := 2, note := 5, eff := 10 } }) =
      some [(0, 0x1A5A7F)] := by decide +kernel

/-! ### Cells and commands (95_test_vectors 2.5, 2.6) -/

theorem test_cell_note_inst :
    see (fun s => s.cmds) (exec (.cellNoteInst 1 4 1 0 0) (playing 0 0 0)) =
      some [0xAAA9A8A7A6A5A4A3A2A1A00021, 0x4041, 0x8000] := by decide +kernel

theorem test_cell_note : see (fun s => s.cmds) (exec (.cellNote 7 14 15 0) State.reset) =
    some [0x407E, 0x8000] := by decide +kernel

theorem test_cell_keyoff : see (fun s => s.cmds) (exec (.cellKeyoff 31 0 0 0) { State.reset with chan := 3 }) =
    some [0xCC00] := by decide +kernel

theorem test_cell_empty : see (fun s => s.cmds) (exec (.cellEmpty 5 5 3 0x20) State.reset) = some [] := by
  decide +kernel

/-- R182: SetInstrument(8, 31) undefined is 0x201F with DATA 0. -/
theorem test_setInstrument_undefined :
    see (fun s => s.cmds) (exec (.setInstrument 8 true 31 5) State.reset) = some [0x201F] := by decide +kernel

theorem test_setFrequency : see (fun s => s.cmds) (exec (.setFrequency 8 7 14) State.reset) = some [0x607E] := by
  decide +kernel

theorem test_keyOn_keyOff :
    see (fun s => s.cmds) (exec (.keyOn 8) State.reset) = some [0xA000] ∧
    see (fun s => s.cmds) (exec (.keyOff 0) State.reset) = some [0xC000] := by decide +kernel

/-! ### A table word is run by the next step -/

theorem test_withFetchWord :
    see (fun s => s.response) (step (State.reset.withFetchWord 16 0x1000)) = some (some ⟨.loadFailed, 2, []⟩) ∧
    see (fun s => s.engine) (step (State.reset.withFetchWord 8 0x1F)) = some (.load .irec) ∧
    see (fun s => s.cmds) (step (State.reset.withFetchWord 24 0xF000)) = some [0xC000] ∧
    see (fun s => s.cmds) (step (State.reset.withFetchWord 104 0x8400)) = some [0x8400] ∧
    decodeTableWord 24 0x0C1000 = some (.cellNoteInst 1 4 1 0 0) := by decide +kernel

/-! ### Witnesses for the hypotheses of the statements -/

/-- ROM_ADDR_W is at least 16. -/
theorem below_address_width {n : Nat} (h : n ≤ 65536) : n ≤ 2 ^ Config.romAddrW :=
  Nat.le_trans h (Nat.pow_le_pow_right (n := 2) (by decide) (Nat.le_add_right 16 _))

theorem witness_ResetRequest :
    see (fun _ => ()) (exec .reset (playing 1 5 1)) = some () ∧ (0x0000 : ReqWord).toNat = 0 := by decide +kernel

theorem witness_WrctrlWritesOnlyLoop :
    (0x3001 : ReqWord).toNat / 4096 = 3 ∧ (0x3001 : ReqWord).toNat % 4096 < 2 ∧
    (0x3002 : ReqWord).toNat / 4096 = 3 ∧ ¬(0x3002 : ReqWord).toNat % 4096 < 2 := by decide

theorem witness_RdregReadsNamedRegister :
    (0x4007 : ReqWord).toNat / 4096 = 4 ∧ (0x4007 : ReqWord).toNat % 4096 < 8 ∧
    (0x4008 : ReqWord).toNat / 4096 = 4 ∧ ¬(0x4008 : ReqWord).toNat % 4096 < 8 := by decide

theorem witness_ReservedRequestsRefused :
    5 ≤ (0x5000 : ReqWord).toNat / 4096 ∧ 5 ≤ (0xFFFF : ReqWord).toNat / 4096 := by decide

theorem witness_NonzeroReservedOperandRefused :
    ((0x2001 : ReqWord).toNat / 4096 ≤ 2 ∧ (0x2001 : ReqWord).toNat % 4096 ≠ 0) ∧
    ((0x3002 : ReqWord).toNat / 4096 = 3 ∧ 2 ≤ (0x3002 : ReqWord).toNat % 4096) ∧
    ((0x4010 : ReqWord).toNat / 4096 = 4 ∧ 16 ≤ (0x4010 : ReqWord).toNat % 4096) := by decide

/-- Each request answers a next state where the statement's clause about it applies. -/
theorem witness_RequestsWriteOnlyTheirState :
    see (fun _ => ()) (exec .reset State.reset) = some () ∧ see (fun _ => ()) (exec .load State.reset) = some () ∧
    see (fun _ => ()) (exec .tick State.reset) = some () ∧ State.reset.seq ≠ .playing ∧
    see (fun _ => ()) (exec .tick (playing 0 0 0)) = some () ∧ (playing 0 0 0).seq = .playing ∧
    see (fun _ => ()) (exec (.wrctrl true) State.reset) = some () ∧
    4 ≤ (0x4000 : ReqWord).toNat / 4096 ∧ see (fun _ => ()) (exec (decodeReq 0x4000) State.reset) = some () ∧
    see (fun _ => ()) (exec (.illegalOperand 2 1) State.reset) = some () := by decide +kernel

theorem witness_PlaybackNeverReadsRom : (encode .tick).fmt = .req ∧ Instr.tick ≠ .load := by decide

theorem witness_ReaderPrimitives :
    (loading .pofs [0x34, 0x12]).pos + 1 < (loading .pofs [0x34, 0x12]).romLen ∧
    { loading .pofs [0x34, 0x12] with pos := 1 }.pos + 1 = (loading .pofs [0x34, 0x12]).romLen ∧
    (loading .pofs [0x34, 0x12]).romLen ≤ { loading .pofs [0x34, 0x12] with pos := 2 }.pos := by decide

theorem witness_PlacedImageReadsBack :
    { State.reset with host := [.image [1, 0, 2]] }.engine = .idle ∧
    { State.reset with host := [.image [1, 0, 2]] }.host = .image [1, 0, 2] :: [] ∧
    ([1, 0, 2] : List Byte).length ≤ 2 ^ Config.romAddrW ∧
    2 ^ Config.romAddrW < (List.replicate (2 ^ Config.romAddrW + 1) (0 : Byte)).length :=
  ⟨rfl, rfl, below_address_width (by decide), by simp⟩

theorem witness_StepRunsDecodedInstruction_idle : State.reset.engine = .idle ∧ State.reset.host = [] := by decide

theorem witness_StepRunsDecodedInstruction_request :
    (withRom [] 0x2000).engine = .idle ∧ (withRom [] 0x2000).host = .request 0x2000 :: [] ∧
    decode ⟨.req, (0x2000 : ReqWord).toNat⟩ = .instr .tick := by decide

theorem witness_StepRunsDecodedInstruction_token :
    (loading .note [0x41, 0x10]).engine = .load .note ∧ Phase.note.format = some .note ∧
    (loading .note [0x41, 0x10]).eos = false ∧
    (loading .note [0x41, 0x10]).pos + tokenLength .note ≤ (loading .note [0x41, 0x10]).romLen ∧
    decode ⟨.note, imageWord (loading .note [0x41, 0x10]) .note⟩ = .instr (.noteNoparam false 4 1 1) := by
  decide +kernel

theorem witness_StepRunsDecodedInstruction_cell :
    { playing 0 0 0 with engine := .cells 0 }.engine = .cells 0 ∧
    decode ⟨.cell, (readCell (playing 0 0 0).song 2 0 0).toNat⟩ = .instr (.cellNoteInst 1 4 1 0 0) := by decide +kernel

theorem witness_StepRunsDecodedInstruction_command :
    { State.reset with engine := .emit 0x8400 }.engine = .emit 0x8400 ∧
    decode ⟨.cmd, (0x8400 : CmdWord).toNat⟩ = .instr (.keyOn 1) := by decide

theorem witness_TruncatedTokenFailsLoad :
    (loading .pofs [0x61]).engine = .load .pofs ∧ Phase.pofs.format = some .pofs ∧ Phase.pofs ≠ .hdr ∧
    (loading .pofs [0x61]).romLen < (loading .pofs [0x61]).pos + tokenLength .pofs := by decide +kernel

theorem witness_InstrumentTokensFillInstrumentRom :
    (1 : BitVec 5) ≠ 0 ∧ (31 : BitVec 5) ≠ 0 ∧ LoadVars.initial.byteNo ≠ 10 := by decide

theorem witness_OrderTokensFillOrderList :
    { State.reset with song := songA }.vars.orderNo.val + 1 < songA.songlen.toNat ∧
    songA.songlen.toNat ≤ ({ LoadVars.initial with orderNo := 1 } : LoadVars).orderNo.val + 1 := by decide +kernel

theorem witness_OffsetTokensFillOffsetTable :
    decodePofs 0 = .pofsUnused ∧ decodePofs 0x61 = .pofs 0x61 ∧ (0 : Half) = 0 := by decide

theorem witness_NoteTokensWriteOneCell : Store.wf 0 songA.prom = true ∧ Store.wf 0 State.reset.song.prom = true := by
  decide +kernel

theorem witness_CellEndsLinePatternOrWalk :
    see (fun _ => ()) (exec (.noteNoparam false 4 1 1) State.reset) = some () ∧
    see (fun _ => ()) (exec (.param 0) State.reset) = some () := by decide +kernel

theorem witness_SlotWalkSeeksOrRefuses :
    (loading .slot []).engine = .load .slot ∧ (loading .slot []).song.pofs[(loading .slot []).vars.slot] = 0 ∧
    (loading .slot []).vars.slot ≠ 31 ∧
    songA.pofs[(31 : Fin 32)] = 0 ∧ songA.pofs[(2 : Fin 32)] ≠ 0 ∧ 0x61 ≤ songA.pofs[(2 : Fin 32)].toNat ∧
    songA.pofs[(2 : Fin 32)].toNat < 0x62 := by decide +kernel

theorem witness_ValidationRefusesOrCommits :
    (loading .validate []).engine = .load .validate ∧ (loading .validate []).song.speed.toNat = 0 ∧
    ¬(songA.speed.toNat = 0 ∨ songA.songlen.toNat = 0 ∨
      (∃ i : Fin 255, i.val < songA.songlen.toNat ∧ songA.pofs[songA.ordlist[i].toNat % 32]? = some (0 : Half))) := by
  decide +kernel

theorem witness_DescriptionBlockIsSkipped :
    (loading .desc [0x48, 0x69, 0]).engine = .load .desc ∧ (loading .desc [0x48, 0x69, 0]).eos = false ∧
    (∀ b ∈ ([0x48, 0x69] : List Byte), b ≠ 0) ∧
    RomHolds (loading .desc [0x48, 0x69, 0]) 0 ([0x48, 0x69] ++ [0]) := by decide +kernel

theorem witness_InstrumentRecordIsStored :
    (loading .islot (31 :: recordA.toList)).engine = .load .islot ∧ (31 : BitVec 5) ≠ 0 ∧
    (loading .islot (31 :: recordA.toList)).eos = false ∧
    RomHolds (loading .islot (31 :: recordA.toList)) 0 ((31 : BitVec 5).setWidth 8 :: recordA.toList) := by
  decide +kernel

theorem witness_OrderListIsStored :
    (loading .olen [2, 0, 0x20]).engine = .load .olen ∧ (loading .olen [2, 0, 0x20]).eos = false ∧
    ([0, 0x20] : List Byte).length ≤ 255 ∧
    RomHolds (loading .olen [2, 0, 0x20]) 0 (BitVec.ofNat 8 ([0, 0x20] : List Byte).length :: [0, 0x20]) := by
  decide +kernel

/-- The shortest and the longest order list: L = 0 and L = 255. -/
theorem witness_OrderListIsStored_bounds :
    (loading .olen [0]).engine = .load .olen ∧ (loading .olen [0]).eos = false ∧
    ([] : List Byte).length ≤ 255 ∧ RomHolds (loading .olen [0]) 0 [BitVec.ofNat 8 ([] : List Byte).length] ∧
    (List.replicate 255 (0x22 : Byte)).length ≤ 255 ∧
    RomHolds (loading .olen (255 :: List.replicate 255 0x22)) 0
      (BitVec.ofNat 8 (List.replicate 255 (0x22 : Byte)).length :: List.replicate 255 0x22) := by decide +kernel

/-- An offset table of 32 words 0x8001. -/
def table8001 : List Byte := (List.replicate 32 ([0x01, 0x80] : List Byte)).flatten

theorem witness_OffsetTableIsStored :
    (loading .pofs table8001).engine = .load .pofs ∧ (loading .pofs table8001).eos = false ∧
    (loading .pofs table8001).vars.slot = 0 ∧
    RomHolds (loading .pofs table8001) 0 ((Vector.replicate 32 (0x8001 : Half)).toList.flatMap fun w =>
      [BitVec.ofNat 8 (w.toNat % 256), BitVec.ofNat 8 (w.toNat / 256)]) := by decide +kernel

theorem witness_PackedCellTakesThreeOrFourBytes :
    (loading .chan [0x80, 0x41, 0x10]).engine = .load .chan ∧ (loading .chan [0x80, 0x41, 0x10]).eos = false ∧
    (0x10 : Byte).toNat % 16 = 0 ∧ RomHolds (loading .chan [0x80, 0x41, 0x10]) 0 [0x80, 0x41, 0x10] ∧
    (0x11 : Byte).toNat % 16 ≠ 0 ∧ RomHolds (loading .chan [0x00, 0x41, 0x11, 0x00]) 0 [0x00, 0x41, 0x11, 0x00] := by
  decide +kernel

/-- Program P1 has the shape of the statement: speed 2, instrument 1, order list [2], slot 2 at 0x61. -/
theorem witness_WellFormedModuleLoads :
    (2 : BitVec 5) ≠ 0 ∧ (1 : BitVec 5) ≠ 0 ∧ (∀ e ∈ ([2] : List Byte), e.toNat % 32 = (2 : Fin 32).val) ∧
    (0x61 : Half) ≠ 0 ∧
    RomHolds (withRom (assemble textP1) 0x1000) 0x11
      ([hdrByte false false false 2, (1 : BitVec 5).setWidth 8] ++ recordA.toList ++
        [0, BitVec.ofNat 8 ([2] : List Byte).length] ++ [2] ++
        (List.finRange 32).flatMap fun j =>
          if j = 2 then [BitVec.ofNat 8 ((0x61 : Half).toNat % 256), BitVec.ofNat 8 ((0x61 : Half).toNat / 256)]
          else [0, 0]) ∧
    RomHolds (withRom (assemble textP1) 0x1000) (0x61 : Half).toNat
      [lineByte true false 0, chanByte true 0 0, BitVec.ofNat 8 (128 * bit false + 16 * (4 : BitVec 3).toNat +
        (1 : BitVec 4).toNat), BitVec.ofNat 8 (16 * (1 : BitVec 4).toNat)] := by decide +kernel

theorem witness_LoadSuccess :
    see (fun t => (t.response, t.seq)) (exec .load (withRom (assemble textP1) 0x1000)) =
      some (some ⟨.ok, 1, []⟩, .playing) := by decide +kernel

/-- Both codes: no image at all, and 18 bytes that end before the instrument table. -/
theorem witness_FailedLoadLeavesFaultEntryState :
    see (fun t => t.response) (exec .load State.reset) = some (some ⟨.loadFailed, 2, []⟩) ∧
    see (fun t => t.response) (exec .load (withRom (List.replicate 18 0) 0x1000)) =
      some (some ⟨.loadFailed, 1, []⟩) := by decide +kernel

theorem witness_ShortImageIsMalformed :
    (withRom (List.replicate 17 0) 0x1000).romLen < 18 ∧ (withRom (List.replicate 18 0) 0x1000).romLen = 18 := by
  decide +kernel

theorem witness_LoadDependsOnlyOnRom :
    (playing 1 5 1).rom = State.reset.rom ∧ (playing 1 5 1).romLen = State.reset.romLen := by decide +kernel

theorem witness_RequestsAreRunsOfInnerSteps :
    18 ≤ (withRom (assemble textP1) 0x1000).romLen ∧
    see (fun _ => ()) (exec .load (withRom (assemble textP1) 0x1000)) = some () ∧
    (playing 0 0 0).seq = .playing ∧ (playing 0 0 0).tickcnt = 0 ∧ (playing 0 0 1).tickcnt ≠ 0 := by decide +kernel

theorem witness_CellEmptyEmitsNothing :
    (0x2D0320 : CellWord).toNat / 2 ^ 12 = (0x2D0FFF : CellWord).toNat / 2 ^ 12 := by decide

theorem witness_CellNoteEmitsFrequencyAndKeyOn :
    1 ≤ (1 : BitVec 4).toNat ∧ (14 : BitVec 4).toNat ≤ 14 ∧ (31 : BitVec 5).toNat - 1 < 31 ∧ (31 : BitVec 5) ≠ 0 ∧
    (1 : BitVec 5) ≠ 0 := by decide

theorem witness_StepKeepsUndefinedPartsEmpty : songA.UndefinedPartsEmpty := by
  refine ⟨fun i h => ?_, fun e h => ?_, by decide +kernel⟩
  · have h2 : 2 ≤ i.val := h
    have h0 : ¬ 0 = i.val := by omega
    have h1 : ¬ 1 = i.val := by omega
    simp [songA, Song.empty, h0, h1]
  · have h0 : ¬ 0 = e.val := fun h0 => by
      simp [songA, h0] at h
    simp [songA, Song.empty, h0]

theorem witness_SetInstrumentLooksUpInstrument :
    (31 : BitVec 5).toNat - 1 < 31 ∧ (8 : BitVec 4).toNat ≤ 8 ∧ (31 : BitVec 5) ≠ 0 ∧ songA.UndefinedPartsEmpty ∧
    songA.iloaded[30] = false :=
  ⟨by decide, by decide, by decide, witness_StepKeepsUndefinedPartsEmpty, by decide +kernel⟩

theorem witness_FrequencyAndKeyCommandsEmitTheirWord :
    (8 : BitVec 4).toNat ≤ 8 ∧ 1 ≤ (14 : BitVec 4).toNat ∧ (14 : BitVec 4).toNat ≤ 14 := by decide

theorem witness_NeverEmittedCommandsAreRefused : 9 ≤ (9 : BitVec 4).toNat := by decide

theorem witness_TickOutsidePlayingChangesNothing :
    State.reset.seq = .idle ∧ { playing 1 0 0 with seq := .ended }.seq = .ended := by decide

/-- The states of the TICK statements: a PLAYING state at its first tick, at a row's last tick, and at the end. -/
theorem witness_playing_states :
    (playing 0 0 0).seq = .playing ∧ (playing 0 0 0).song.Playable ∧ (playing 0 0 0).PositionInSong ∧
    (playing 1 63 1).PositionInSong ∧ (playing 0 0 0).song.speed.toNat ≠ 0 ∧
    (playing 1 63 1).order.toNat < (playing 1 63 1).song.songlen.toNat := by decide +kernel

theorem witness_TickCommandsAreBoundedAndWellFormed :
    see (fun t => t.response.isSome) (exec .tick (playing 0 0 0)) = some true := by decide +kernel

theorem witness_LoopBitReadOnlyAtSongEnd :
    ¬(((playing 0 63 1).tickcnt.toNat + 1) % (playing 0 63 1).song.speed.toNat = 0 ∧ (playing 0 63 1).row = 63 ∧
      (playing 0 63 1).song.songlen.toNat ≤ (playing 0 63 1).order.toNat + 1) := by decide +kernel

theorem witness_SpeedTicksAdvanceOneRow : (playing 1 62 0).tickcnt = 0 ∧ (playing 1 62 0).row ≠ 63 ∧
    (playing 1 62 0).PositionInSong := by decide +kernel

theorem witness_RowIsProcessedByItsTickNumber :
    (playing 0 0 0).order = 0 ∧ (playing 0 0 0).row = 0 ∧ (playing 0 0 0).tickcnt = 0 ∧
    1 < (playing 0 0 0).song.songlen.toNat ∧ 63 < 64 := by decide +kernel

theorem witness_FullPassEndsOrLoops :
    (playing 0 0 0).loop = false ∧ { playing 0 0 0 with loop := true }.loop = true ∧
    255 < (playing 0 0 0).song.speed.toNat * 64 * (playing 0 0 0).song.songlen.toNat := by decide +kernel

/-- The PLAYING state meets the invariant, so a TICK from it is a case of the statements about every step. -/
theorem witness_Inv : ({ playing 0 0 0 with host := [.request 0x2000] } : State).Inv := by
  refine ⟨by decide +kernel,
    show (playing 0 0 0).song.Playable ∧ (playing 0 0 0).PositionInSong by decide +kernel,
    ⟨rfl, by simp [playing, State.reset], ?_, by decide +kernel, by decide +kernel, ?_⟩, by decide +kernel⟩ <;> exact below_address_width (by decide)

theorem witness_StepAnswersEveryRequest :
    see (fun _ => ()) (step { playing 0 0 0 with host := [.request 0x2000] }) = some () ∧
    ({ playing 0 0 0 with host := [.request 0x2000] } : State).host = .request 0x2000 :: [] := by decide +kernel

theorem witness_DecodeOfEncodeIsIdentity : (Instr.setInstrument 8 true 31 (-1)).wellFormed = true := by decide

theorem witness_EncodeOfDecodeIsIdentity : decode ⟨.req, 0xFFFF⟩ = .instr (.reservedOp8F 15 0xFFF) := by decide

theorem witness_IgnoredBitsChangeNothing :
    (0x02 : Byte).toNat % 32 = (0x22 : Byte).toNat % 32 ∧ (0x02 : Byte).toNat / 64 = (0x22 : Byte).toNat / 64 ∧
    (0x80 : Byte).toNat % 64 = (0xC0 : Byte).toNat % 64 ∧ (0x80 : Byte).toNat / 128 = (0xC0 : Byte).toNat / 128 ∧
    (0x00 : Byte).toNat % 16 = (0x70 : Byte).toNat % 16 ∧ (0x00 : Byte).toNat / 128 = (0x70 : Byte).toNat / 128 ∧
    Format.note ≠ .cmd ∧ 65535 < 2 ^ Format.note.width := by decide

theorem witness_CellWriteReadsBackModuloBounds : Store.wf 0 songA.prom = true := by decide +kernel

end Sys2Proof.Tests
end

/-! ## What decoding answers, format by format (spec/30_encoding.md) -/

namespace Sys2Proof

@[simp] theorem decode_req (w : ReqWord) : decode ⟨.req, w.toNat⟩ = .instr (decodeReq w) := by
  simp [decode, Format.width, w.isLt]

@[simp] theorem decode_hdr (b : Byte) : decode ⟨.hdr, b.toNat⟩ = .instr (decodeHdr b) := by
  simp [decode, Format.width, b.isLt]

@[simp] theorem decode_desc (b : Byte) : decode ⟨.desc, b.toNat⟩ = .instr (decodeDesc b) := by
  simp [decode, Format.width, b.isLt]

@[simp] theorem decode_islot (b : Byte) : decode ⟨.islot, b.toNat⟩ = .instr (decodeIslot b) := by
  simp [decode, Format.width, b.isLt]

@[simp] theorem decode_irec (b : Byte) : decode ⟨.irec, b.toNat⟩ = .instr (.irecByte b) := by
  simp [decode, Format.width, b.isLt]

@[simp] theorem decode_olen (b : Byte) : decode ⟨.olen, b.toNat⟩ = .instr (.olen b) := by
  simp [decode, Format.width, b.isLt]

@[simp] theorem decode_oent (b : Byte) : decode ⟨.oent, b.toNat⟩ = .instr (.oent b) := by
  simp [decode, Format.width, b.isLt]

@[simp] theorem decode_pofs (w : Half) : decode ⟨.pofs, w.toNat⟩ = .instr (decodePofs w) := by
  simp [decode, Format.width, w.isLt]

@[simp] theorem decode_line (b : Byte) : decode ⟨.line, b.toNat⟩ = .instr (decodeLine b) := by
  simp [decode, Format.width, b.isLt]

@[simp] theorem decode_chan (b : Byte) : decode ⟨.chan, b.toNat⟩ = .instr (decodeChan b) := by
  simp [decode, Format.width, b.isLt]

@[simp] theorem decode_note (n : Half) : decode ⟨.note, n.toNat⟩ = .instr (decodeNote n) := by
  simp [decode, Format.width, n.isLt]

@[simp] theorem decode_param (b : Byte) : decode ⟨.param, b.toNat⟩ = .instr (.param b) := by
  simp [decode, Format.width, b.isLt]

@[simp] theorem decode_cell (w : CellWord) : decode ⟨.cell, w.toNat⟩ = .instr (decodeCell w) := by
  simp [decode, Format.width, w.isLt]

@[simp] theorem decode_cmd (w : CmdWord) : decode ⟨.cmd, w.toNat⟩ = decodeCmd w := by
  simp [decode, Format.width, w.isLt]

section DecodedFormat

theorem decodeDesc_fmt (b : Byte) : (encode (decodeDesc b)).fmt = .desc := by
  unfold decodeDesc; split <;> rfl

theorem decodeIslot_fmt (b : Byte) : (encode (decodeIslot b)).fmt = .islot := by
  unfold decodeIslot; split_ifs <;> rfl

theorem decodePofs_fmt (w : Half) : (encode (decodePofs w)).fmt = .pofs := by
  unfold decodePofs; split <;> rfl

theorem decodeLine_fmt (b : Byte) : (encode (decodeLine b)).fmt = .line := by
  unfold decodeLine; split <;> rfl

theorem decodeChan_fmt (b : Byte) : (encode (decodeChan b)).fmt = .chan := by
  unfold decodeChan; split <;> rfl

theorem decodeNote_fmt (n : Half) : (encode (decodeNote n)).fmt = .note := by
  unfold decodeNote; split <;> rfl

theorem decodeCell_fmt (w : CellWord) : (encode (decodeCell w)).fmt = .cell := by
  unfold decodeCell; dsimp only; split_ifs <;> rfl

theorem decodeCmd_fmt {w : CmdWord} {i : Instr} (h : decodeCmd w = .instr i) : (encode i).fmt = .cmd := by
  unfold decodeCmd at h; dsimp only at h
  split_ifs at h <;> cases h <;> rfl

end DecodedFormat

section EmittedWords

open BitVec

theorem decodeCmd_setInstrumentWord {ch : BitVec 4} (l : Bool) {inst : BitVec 5} (data : BitVec 88)
    (hch : isChannel ch = true) (hinst : inst ≠ 0) :
    decodeCmd (setInstrumentWord ch l inst data) = .instr (.setInstrument ch l inst data) := by
  simp (disch := decide) only [setInstrumentWord, decodeCmd, extractLsb, extractLsb'_append_eq_of_add_le,
    extractLsb'_append_eq_of_le, getLsbD_append]
  simpa [hch] using hinst

theorem decodeCmd_setFrequencyWord {ch : BitVec 4} (oct : BitVec 3) {note : BitVec 4}
    (hch : isChannel ch = true) (hnote : isPitch note = true) :
    decodeCmd (setFrequencyWord ch oct note) = .instr (.setFrequency ch oct note) := by
  simp (disch := decide) only [setFrequencyWord, decodeCmd, extractLsb, extractLsb'_append_eq_of_add_le,
    extractLsb'_append_eq_of_le]
  simp [hch, hnote]

theorem decodeCmd_keyOnWord {ch : BitVec 4} (hch : isChannel ch = true) :
    decodeCmd (keyOnWord ch) = .instr (.keyOn ch) := by
  simp (disch := decide) only [keyOnWord, decodeCmd, extractLsb, extractLsb'_append_eq_of_add_le,
    extractLsb'_append_eq_of_le]
  simp [hch]

theorem decodeCmd_keyOffWord {ch : BitVec 4} (hch : isChannel ch = true) :
    decodeCmd (keyOffWord ch) = .instr (.keyOff ch) := by
  simp (disch := decide) only [keyOffWord, decodeCmd, extractLsb, extractLsb'_append_eq_of_add_le,
    extractLsb'_append_eq_of_le]
  simp [hch]

end EmittedWords

end Sys2Proof

/-! ## What a LOAD fetches (spec/40_load.md R133 to R149) -/

namespace Sys2Proof.Machine

section TokensInsideTheImage

variable {s : State} (heos : s.eos = false)
include heos

theorem byteToken_inside (d : Byte → Instr) (h : s.pos < s.romLen) :
    byteToken d s = .instr (d (Memory.read s.rom s.pos)) { s with pos := s.pos + 1 } := by
  simp [byteToken, checkEos, readByte_inside h, memRead, heos]

theorem wordToken_inside (d : Half → Instr) (h : s.pos + 1 < s.romLen) :
    wordToken d s =
      .instr (d (Memory.read s.rom (s.pos + 1) ++ Memory.read s.rom s.pos)) { s with pos := s.pos + 2 } := by
  have h0 : s.pos < s.romLen := by omega
  simp [wordToken, checkEos, readWord, readByte, memRead, h0, h, heos]

theorem noteToken_inside (h : s.pos + 1 < s.romLen) :
    noteToken s =
      .instr (decodeNote (Memory.read s.rom s.pos ++ Memory.read s.rom (s.pos + 1)))
        { s with pos := s.pos + 2 } := by
  have h0 : s.pos < s.romLen := by omega
  simp [noteToken, checkEos, readByte, memRead, h0, h, heos]

end TokensInsideTheImage

theorem byte_append_toNat (hi lo : Byte) : (hi ++ lo).toNat = 256 * hi.toNat + lo.toNat := by
  rw [BitVec.toNat_append, ← Nat.shiftLeft_add_eq_or_of_lt lo.isLt, Nat.shiftLeft_eq]
  omega

theorem imageWord_pofs (s : State) :
    imageWord s .pofs = (Memory.read s.rom (s.pos + 1) ++ Memory.read s.rom s.pos).toNat := by
  simp only [imageWord, byte_append_toNat, if_pos]; omega

theorem imageWord_note (s : State) :
    imageWord s .note = (Memory.read s.rom s.pos ++ Memory.read s.rom (s.pos + 1)).toNat := by
  simp [imageWord, byte_append_toNat]

theorem byteToken_decoded {s : State} {d : Byte → Instr} {f : Format} {i : Instr}
    (hd : ∀ b : Byte, decode ⟨f, b.toNat⟩ = .instr (d b))
    (hword : imageWord s f = (Memory.read s.rom s.pos).toNat) (heos : s.eos = false) (hpos : s.pos < s.romLen)
    (hdec : decode ⟨f, imageWord s f⟩ = .instr i) : byteToken d s = .instr i { s with pos := s.pos + 1 } := by
  rw [hword, hd] at hdec
  cases hdec
  exact byteToken_inside heos d hpos

/-- A token that lies whole inside the image is decoded from the image's bytes at POS, and POS moves over it. -/
theorem loadFetch_inside {s : State} {p : Phase} {f : Format} {i : Instr} (hp : p.format = some f)
    (heos : s.eos = false) (hpos : s.pos + tokenLength f ≤ s.romLen)
    (hdec : decode ⟨f, imageWord s f⟩ = .instr i) :
    loadFetch s p = .instr i { s with pos := s.pos + tokenLength f } := by
  cases p <;> cases hp
  case hdr =>
    cases (decode_hdr _).symm.trans hdec
    simp only [loadFetch, readByte_inside hpos]; rfl
  case desc => exact byteToken_decoded decode_desc rfl heos hpos hdec
  case islot => exact byteToken_decoded decode_islot rfl heos hpos hdec
  case irec => exact byteToken_decoded decode_irec rfl heos hpos hdec
  case olen => exact byteToken_decoded decode_olen rfl heos hpos hdec
  case oent => exact byteToken_decoded decode_oent rfl heos hpos hdec
  case pofs =>
    rw [imageWord_pofs, decode_pofs] at hdec
    cases hdec
    exact wordToken_inside heos _ hpos
  case line => exact byteToken_decoded decode_line rfl heos hpos hdec
  case chan => exact byteToken_decoded decode_chan rfl heos hpos hdec
  case note =>
    rw [imageWord_note, decode_note] at hdec
    cases hdec
    exact noteToken_inside heos hpos
  case param => exact byteToken_decoded decode_param rfl heos hpos hdec

section FetchedFormat

variable {s t : State} {i : Instr}

/-- After CheckEOS an instruction is fetched only where EOS is clear. -/
theorem checkEos_eq_instr {k : State → Fetched} (h : checkEos s k = .instr i t) : k s = .instr i t := by
  unfold checkEos at h
  split at h
  · cases h
  · exact h

theorem byteToken_eq_instr {d : Byte → Instr} (h : byteToken d s = .instr i t) : ∃ b, i = d b := by
  cases checkEos_eq_instr h
  exact ⟨_, rfl⟩

theorem wordToken_eq_instr {d : Half → Instr} (h : wordToken d s = .instr i t) : ∃ w, i = d w := by
  cases checkEos_eq_instr h
  exact ⟨_, rfl⟩

theorem noteToken_eq_instr (h : noteToken s = .instr i t) : ∃ n, i = decodeNote n := by
  unfold noteToken at h
  cases checkEos_eq_instr (checkEos_eq_instr h)
  exact ⟨_, rfl⟩

/-- A LOAD takes only tokens, and each under the format of its phase. -/
theorem loadFetch_fmt {p : Phase} (h : loadFetch s p = .instr i t) : p.format = some (encode i).fmt := by
  cases p with
  | hdr => cases h; rfl
  | desc => obtain ⟨b, rfl⟩ := byteToken_eq_instr h; rw [decodeDesc_fmt]; rfl
  | islot => obtain ⟨b, rfl⟩ := byteToken_eq_instr h; rw [decodeIslot_fmt]; rfl
  | irec => obtain ⟨b, rfl⟩ := byteToken_eq_instr h; rfl
  | olen => obtain ⟨b, rfl⟩ := byteToken_eq_instr h; rfl
  | oent => obtain ⟨b, rfl⟩ := byteToken_eq_instr h; rfl
  | pofs => obtain ⟨w, rfl⟩ := wordToken_eq_instr h; rw [decodePofs_fmt]; rfl
  | slot => cases h
  | line => obtain ⟨b, rfl⟩ := byteToken_eq_instr h; rw [decodeLine_fmt]; rfl
  | chan => obtain ⟨b, rfl⟩ := byteToken_eq_instr h; rw [decodeChan_fmt]; rfl
  | note => obtain ⟨n, rfl⟩ := noteToken_eq_instr h; rw [decodeNote_fmt]; rfl
  | param => obtain ⟨b, rfl⟩ := byteToken_eq_instr h; rfl
  | validate => cases h

theorem Phase.format_ne_req (p : Phase) : p.format ≠ some .req := by cases p <;> decide

/-- No request is fetched inside a request (R210). -/
theorem fetch_fmt_ne_req (hs : s.engine ≠ .idle) (h : fetch s = .instr i t) : (encode i).fmt ≠ .req := by
  unfold fetch at h
  split at h
  case h_1 he => exact absurd he hs
  case h_2 p _ =>
    intro hreq
    exact p.format_ne_req (hreq ▸ loadFetch_fmt h)
  case h_3 => cases h; simp [decodeCell_fmt]
  case h_4 => cases h
  case h_5 w _ =>
    unfold emitFetch at h
    split at h <;> cases h
    next hw => simp [decodeCmd_fmt hw]

end FetchedFormat

/-! ## Single steps and the requests made of them (log 2) -/

/-- Inside a request the machine's step is the inner step. -/
theorem step_eq_innerStep {s : State} (hs : s.engine ≠ .idle) : step s = innerStep s := by
  unfold step innerStep
  cases hf : fetch s with
  | instr i t => exact (runInner_eq_exec (fetch_fmt_ne_req hs hf) t).symm
  | settled o => rfl

theorem run_succ (k : Nat) (s : State) :
    Host.Core.run core (k + 1) s = andThen (step s) (Host.Core.run core k) := by
  simp only [Host.Core.run, core]
  cases step s <;> rfl

/-- A request that ends is a run of single steps. -/
theorem runRequest_is_run {fuel : Nat} {s t : State} (h : runRequest fuel s = .next t) :
    ∃ k, Host.Core.run core k s = .next t := by
  induction fuel generalizing s with
  | zero => simp [runRequest] at h
  | succ n ih =>
    by_cases hs : s.engine = .idle
    · exact ⟨0, by rw [runRequest_idle hs] at h; exact h⟩
    · rw [runRequest_step hs, andThen_eq_next] at h
      obtain ⟨u, hu, h⟩ := h
      obtain ⟨k, hk⟩ := ih h
      exact ⟨k + 1, by rw [run_succ, step_eq_innerStep hs, hu]; exact hk⟩

/-- A property every step inside the request keeps holds at the end of the request. -/
theorem runRequest_keeps_of_running {P : State → Prop}
    (hP : ∀ s t, s.engine ≠ .idle → P s → innerStep s = .next t → P t)
    {fuel : Nat} {s t : State} (hs : P s) (h : runRequest fuel s = .next t) : P t := by
  induction fuel generalizing s with
  | zero => simp [runRequest] at h
  | succ n ih =>
    by_cases he : s.engine = .idle
    · rw [runRequest_idle he] at h; cases h; exact hs
    · rw [runRequest_step he, andThen_eq_next] at h
      obtain ⟨u, hu, h⟩ := h
      exact ih (hP s u he hs hu) h

/-! ## What a cell emits (spec/41_playback.md R176 to R185) -/

/-- A word the decoder takes back as a well-formed command (R114). -/
def WellFormedCommand (w : CmdWord) : Prop := ∃ i, decode ⟨.cmd, w.toNat⟩ = .instr i ∧ i.wellFormed = true

/-- At most `n` commands, each well-formed. -/
def CommandsUpTo (n : Nat) (ws : List CmdWord) : Prop := ws.length ≤ n ∧ ∀ w ∈ ws, WellFormedCommand w

/-- From `s` to `t` at most `n` well-formed commands are emitted and nothing else changes. -/
def Emits (n : Nat) (s t : State) : Prop := ∃ ws, CommandsUpTo n ws ∧ t = { s with cmds := s.cmds ++ ws }

section Emission

variable {m n : Nat} {s t u : State}

theorem CommandsUpTo.nil : CommandsUpTo n [] := by simp [CommandsUpTo]

theorem CommandsUpTo.append {vs ws : List CmdWord} (hv : CommandsUpTo m vs) (hw : CommandsUpTo n ws) :
    CommandsUpTo (m + n) (vs ++ ws) :=
  ⟨by simpa using Nat.add_le_add hv.1 hw.1, by simpa [or_imp, forall_and] using ⟨hv.2, hw.2⟩⟩

theorem CommandsUpTo.mono {ws : List CmdWord} (h : CommandsUpTo m ws) (hmn : m ≤ n) : CommandsUpTo n ws :=
  ⟨h.1.trans hmn, h.2⟩

theorem Emits.nothing : Emits n s s := ⟨[], .nil, by simp⟩

theorem Emits.one {w : CmdWord} (h : WellFormedCommand w) : Emits 1 s (emit w s) :=
  ⟨[w], ⟨by simp, by simpa using h⟩, rfl⟩

theorem Emits.trans (hst : Emits m s t) (htu : Emits n t u) : Emits (m + n) s u := by
  obtain ⟨vs, hvs, rfl⟩ := hst
  obtain ⟨ws, hws, rfl⟩ := htu
  exact ⟨vs ++ ws, hvs.append hws, by simp⟩

theorem Emits.mono (h : Emits m s t) (hmn : m ≤ n) : Emits n s t := by
  obtain ⟨ws, hws, ht⟩ := h
  exact ⟨ws, hws.mono hmn, ht⟩

theorem Emits.engine (h : Emits n s t) : t.engine = s.engine := by
  obtain ⟨ws, _, rfl⟩ := h; rfl

theorem Emits.commandsUpTo (h : Emits n s t) (hs : CommandsUpTo m s.cmds) : CommandsUpTo (m + n) t.cmds := by
  obtain ⟨ws, hws, rfl⟩ := h
  exact hs.append hws

variable {ch : BitVec 4}

theorem emitSetInstrument_emits {inst : BitVec 5} (h : emitSetInstrument ch inst s = .next t) : Emits 1 s t := by
  unfold emitSetInstrument at h
  split_ifs at h with hinst hch
  cases h
  exact .one ⟨_, (decode_cmd _).trans (decodeCmd_setInstrumentWord _ _ hch hinst),
    by simpa [Instr.wellFormed, hch] using hinst⟩

theorem emitSetFrequency_emits {oct : BitVec 3} {note : BitVec 4} (h : emitSetFrequency ch oct note s = .next t) :
    Emits 1 s t := by
  unfold emitSetFrequency at h
  split_ifs at h with hwf
  cases h
  obtain ⟨hch, hnote⟩ := Bool.and_eq_true_iff.1 hwf
  exact .one ⟨_, (decode_cmd _).trans (decodeCmd_setFrequencyWord _ hch hnote), hwf⟩

theorem emitKeyOn_emits (h : emitKeyOn ch s = .next t) : Emits 1 s t := by
  unfold emitKeyOn at h
  split_ifs at h with hch
  cases h
  exact .one ⟨_, (decode_cmd _).trans (decodeCmd_keyOnWord hch), hch⟩

theorem emitKeyOff_emits (h : emitKeyOff ch s = .next t) : Emits 1 s t := by
  unfold emitKeyOff at h
  split_ifs at h with hch
  cases h
  exact .one ⟨_, (decode_cmd _).trans (decodeCmd_keyOffWord hch), hch⟩

variable {oct : BitVec 3} {note eff : BitVec 4} {param : Byte}

theorem execCellNote_emits (h : exec (.cellNote oct note eff param) s = .next t) : Emits 2 s t := by
  obtain ⟨u, hfreq, hkey⟩ := andThen_eq_next.1 h
  exact (emitSetFrequency_emits hfreq).trans (emitKeyOn_emits hkey)

theorem execCellNoteInst_emits {inst : BitVec 5} (h : exec (.cellNoteInst inst oct note eff param) s = .next t) :
    Emits 3 s t := by
  obtain ⟨u, hinst, h⟩ := andThen_eq_next.1 h
  obtain ⟨v, hfreq, hkey⟩ := andThen_eq_next.1 h
  exact ((emitSetInstrument_emits hinst).trans (emitSetFrequency_emits hfreq)).trans (emitKeyOn_emits hkey)

/-- A cell emits at most three commands, each well-formed, and changes nothing else. -/
theorem exec_decodeCell_emits {w : CellWord} (h : exec (decodeCell w) s = .next t) : Emits 3 s t := by
  unfold decodeCell at h
  dsimp only at h
  split_ifs at h
  · cases h; exact .nothing
  · exact (emitKeyOff_emits h).mono (by decide)
  · exact (execCellNote_emits h).mono (by decide)
  · exact execCellNoteInst_emits h

end Emission

/-! ## The steps of a PLAYING TICK (spec/41_playback.md R173 to R181) -/

/-- From `s` to `t` nothing changes but the position, CURPAT, STATE and the boundary flags. -/
def MovesPosition (s t : State) : Prop :=
  t = { s with
    order := t.order, row := t.row, tickcnt := t.tickcnt, curpat := t.curpat, seq := t.seq,
    rowBoundary := t.rowBoundary, orderBoundary := t.orderBoundary }

section TickSteps

variable {s t u : State}

theorem MovesPosition.trans (hst : MovesPosition s t) (htu : MovesPosition t u) : MovesPosition s u := by
  unfold MovesPosition at *
  rw [htu, hst]

theorem MovesPosition.cmds (h : MovesPosition s t) : t.cmds = s.cmds := by
  unfold MovesPosition at h; rw [h]

theorem orderAdvance_movesPosition (s : State) : MovesPosition s (orderAdvance s) := by
  unfold orderAdvance; split_ifs <;> rfl

theorem resolvePattern_movesPosition (h : resolvePattern s = .next t) : MovesPosition s t := by
  unfold resolvePattern at h
  split at h <;> cases h
  rfl

theorem rowAdvance_movesPosition (h : rowAdvance s = .next t) : MovesPosition s t := by
  unfold rowAdvance at h
  dsimp only at h
  split at h
  · have hrow : ∀ r, MovesPosition s { s with row := r, orderBoundary := true } := fun _ => rfl
    exact (hrow _).trans ((orderAdvance_movesPosition _).trans (resolvePattern_movesPosition h))
  · cases h; rfl

theorem tickAdvance_movesPosition (h : tickAdvance s = .next t) : MovesPosition s t := by
  unfold tickAdvance at h
  dsimp only at h
  split_ifs at h
  · have htick : ∀ k, MovesPosition s { s with tickcnt := k, rowBoundary := true } := fun _ => rfl
    exact (htick _).trans (rowAdvance_movesPosition h)
  · cases h; rfl

theorem finishTick_eq_next (h : finishTick s = .next t) :
    ∃ u, MovesPosition s u ∧ t = respond .ok u.status s.cmds (endRequest u) := by
  obtain ⟨u, hu, h⟩ := andThen_eq_next.1 h
  have hmove := tickAdvance_movesPosition hu
  cases h
  exact ⟨u, hmove, by rw [hmove.cmds]⟩

theorem innerStep_cells {c : Fin 9} (hs : s.engine = .cells c) (h : innerStep s = .next t) :
    Emits 3 { s with chan := c, engine := afterCell c } t := by
  simp only [innerStep, fetch, hs, cellFetch] at h
  rw [runInner_eq_exec (by simp [decodeCell_fmt])] at h
  exact exec_decodeCell_emits h

theorem innerStep_tickEnd (hs : s.engine = .tickEnd) : innerStep s = finishTick s := by
  simp only [innerStep, fetch, hs]

/-- How many steps a TICK still takes from this position; `none` where no TICK comes. -/
def Engine.tickStepsLeft : Engine → Option Nat
  | .cells c => some (10 - c.val)
  | .tickEnd => some 1
  | .idle => some 0
  | .load _ | .emit _ => none

theorem afterCell_tickStepsLeft (c : Fin 9) : (afterCell c).tickStepsLeft = some (9 - c.val) := by
  unfold afterCell
  split <;> (simp only [Engine.tickStepsLeft, Option.some.injEq]; omega)

theorem innerStep_tickStepsLeft {n : Nat} (hs : s.engine.tickStepsLeft = some (n + 1))
    (h : innerStep s = .next t) : t.engine.tickStepsLeft = some n := by
  cases he : s.engine with
  | idle => simp [he, Engine.tickStepsLeft] at hs
  | load p => simp [he, Engine.tickStepsLeft] at hs
  | cells c =>
    simp only [he, Engine.tickStepsLeft, Option.some.injEq] at hs
    rw [(innerStep_cells he h).engine, afterCell_tickStepsLeft]
    congr 1; omega
  | tickEnd =>
    rw [innerStep_tickEnd he] at h
    obtain ⟨u, _, rfl⟩ := finishTick_eq_next h
    simpa [he, Engine.tickStepsLeft, eq_comm] using hs
  | emit w => simp [he, Engine.tickStepsLeft] at hs

theorem tickStepsLeft_eq_zero {e : Engine} : e.tickStepsLeft = some 0 ↔ e = .idle := by
  cases e with
  | cells c => simp only [Engine.tickStepsLeft, Option.some.injEq, reduceCtorEq, iff_false]; omega
  | _ => simp [Engine.tickStepsLeft]

/-- A TICK run to its end is a run of exactly the steps it has left. -/
theorem runRequest_eq_run {n fuel : Nat} (hs : s.engine.tickStepsLeft = some n) (hfuel : n < fuel) :
    runRequest fuel s = Host.Core.run core n s := by
  induction n generalizing s fuel with
  | zero =>
    obtain ⟨fuel, rfl⟩ := Nat.exists_eq_add_of_lt hfuel
    exact runRequest_idle (tickStepsLeft_eq_zero.1 hs)
  | succ n ih =>
    have hrun : s.engine ≠ .idle := fun he => by simp [he, Engine.tickStepsLeft] at hs
    obtain ⟨fuel, rfl⟩ := Nat.exists_eq_succ_of_ne_zero (Nat.ne_zero_of_lt hfuel)
    rw [runRequest_step hrun, run_succ, step_eq_innerStep hrun]
    cases hi : innerStep s with
    | next t => exact ih (innerStep_tickStepsLeft hs hi) (by omega)
    | fault r => rfl
    | refused r => rfl

theorem startTick_tickStepsLeft (s : State) :
    (startTick s).engine.tickStepsLeft = some (if s.tickcnt = 0 then 10 else 1) := by
  unfold startTick
  split <;> rfl

/-- The command list of a running TICK after as many cells as it has executed, and the commands of its response once
it has ended. -/
def State.TickCommandsBounded (s : State) : Prop :=
  match s.engine with
  | .cells c => CommandsUpTo (3 * c.val) s.cmds
  | .tickEnd => CommandsUpTo 27 s.cmds
  | .idle => ∀ r, s.response = some r → CommandsUpTo 27 r.cmds
  | .load _ | .emit _ => False

theorem startTick_commandsBounded (s : State) : (startTick s).TickCommandsBounded := by
  unfold startTick State.TickCommandsBounded
  split_ifs <;> exact .nil

theorem innerStep_keeps_commandsBounded (hrun : s.engine ≠ .idle) (hs : s.TickCommandsBounded)
    (h : innerStep s = .next t) : t.TickCommandsBounded := by
  unfold State.TickCommandsBounded at hs
  split at hs
  case h_1 c he =>
    have hemit := innerStep_cells he h
    have hcmds : CommandsUpTo (3 * c.val + 3) t.cmds := hemit.commandsUpTo hs
    by_cases hc : c.val < 8
    · have hnext : t.engine = .cells ⟨c.val + 1, by omega⟩ := hemit.engine.trans (dif_pos hc)
      simpa only [State.TickCommandsBounded, hnext] using hcmds.mono (by omega)
    · have hnext : t.engine = .tickEnd := hemit.engine.trans (dif_neg hc)
      simpa only [State.TickCommandsBounded, hnext] using hcmds.mono (by omega)
  case h_2 he =>
    rw [innerStep_tickEnd he] at h
    obtain ⟨u, _, rfl⟩ := finishTick_eq_next h
    intro r hr
    cases hr
    exact hs
  case h_3 he => exact absurd he hrun
  case h_4 => exact hs.elim
  case h_5 => exact hs.elim

end TickSteps

/-! ## The obligations -/

/-- Settles O13: each clause is what `fetch` takes at that position, read through the decoder. -/
theorem stepRunsDecodedInstruction : Obligations.StepRunsDecodedInstruction := by
  refine ⟨?nothing, ?request, ?token, ?cell, ?command⟩
  case nothing =>
    intro s hidle hhost
    simp [step, fetch, hostFetch, hidle, hhost]
  case request =>
    intro s w rest i hidle hhost hdec
    cases (decode_req w).symm.trans hdec
    simp [step, fetch, hostFetch, hidle, hhost]
  case token =>
    intro s p f i hload hp heos hpos hdec
    simp [step, fetch, hload, loadFetch_inside hp heos hpos hdec]
  case cell =>
    intro s c i hcells hdec
    cases (decode_cell _).symm.trans hdec
    simp [step, fetch, hcells, cellFetch]
  case command =>
    intro s w i hemit hdec
    rw [decode_cmd] at hdec
    simp [step, fetch, hemit, emitFetch, hdec]

/-- Settles O37: inside a request the machine's step is the inner step, and a TICK takes exactly the steps it has
left at its start. -/
theorem requestsAreRunsOfInnerSteps : Obligations.RequestsAreRunsOfInnerSteps := by
  refine ⟨?load, ?tick⟩
  case load =>
    intro s t hlen h
    change execLoad s = .next t at h
    rw [execLoad, if_neg (by omega)] at h
    exact runRequest_is_run h
  case tick =>
    intro s t hplaying
    have hrun : exec .tick s = runRequest tickFuel (startTick s) := by
      change execTick s = _
      rw [execTick, hplaying]
    rw [hrun, runRequest_eq_run (startTick_tickStepsLeft s) (by unfold tickFuel; split <;> decide)]
    rfl

/-- Settles O47: each cell adds at most three well-formed commands to the list, the end of the TICK answers with that
list, and a TICK outside PLAYING answers with none. -/
theorem tickCommandsAreBoundedAndWellFormed : Obligations.TickCommandsAreBoundedAndWellFormed := by
  intro s t r h hr
  change execTick s = .next t at h
  unfold execTick at h
  split at h
  case h_1 => cases h; cases hr; exact CommandsUpTo.nil
  case h_2 => cases h; cases hr; exact CommandsUpTo.nil
  case h_3 =>
    have hbounded := runRequest_keeps_of_running (P := State.TickCommandsBounded)
      (fun _ _ => innerStep_keeps_commandsBounded) (startTick_commandsBounded s) h
    unfold State.TickCommandsBounded at hbounded
    rw [runRequest_ends h] at hbounded
    exact hbounded r hr

end Sys2Proof.Machine

/-! ## What a running LOAD has decoded (spec/40_load.md R131 to R148) -/

namespace Sys2Proof.Machine

/-- The order list is still to be read (R138). -/
def Phase.beforeOrders : Phase → Bool
  | .hdr | .desc | .islot | .irec | .olen => true
  | .oent | .pofs | .slot | .line | .chan | .note | .param | .validate => false

/-- No pattern has been walked yet (R140). -/
def Phase.beforePatterns : Phase → Bool
  | .hdr | .desc | .islot | .irec | .olen | .oent | .pofs => true
  | .slot | .line | .chan | .note | .param | .validate => false

/-- The reader is inside the lines of a pattern (R142 to R148). -/
def Phase.inPattern : Phase → Bool
  | .line | .chan | .note | .param => true
  | .hdr | .desc | .islot | .irec | .olen | .oent | .pofs | .slot | .validate => false

/-- What holds of the song when LOAD comes to a phase: the pattern ROM's form, that the parts no token has defined are
empty (the instrument being read excepted), and how far the order list and the patterns have been read. -/
structure Song.DecodedUpTo (q : Song) (v : LoadVars) (p : Phase) : Prop where
  promCanonical : Store.wf 0 q.prom = true
  promInRange : ∀ c ∈ q.prom, c.1 < 32 * 576
  ordersEmpty : ∀ i : Fin 255, q.songlen.toNat ≤ i.val → q.ordlist[i] = 0
  instrumentsEmpty : ∀ e : Fin 31, q.iloaded[e] = false → (p = .irec → e ≠ v.entry) →
    q.irom[e] = Vector.replicate 11 0
  gridsEmpty : ∀ c ∈ q.prom, isAllocated q (BitVec.ofNat 5 (c.1 / 576)) = true
  lengthUnread : p.beforeOrders = true → q.songlen = 0
  orderInList : p = .oent → v.orderNo.val < q.songlen.toNat
  gridsUnread : p.beforePatterns = true → q.prom = []
  slotAllocated : p.inPattern = true → q.pofs[v.slot] ≠ 0

/-- A phase that asks for nothing beyond what the phase before it has established. -/
abbrev Phase.LeadsTo (p p' : Phase) : Prop :=
  p ≠ .irec ∧ p' ≠ .oent ∧ (p'.beforeOrders = true → p.beforeOrders = true) ∧
    (p'.beforePatterns = true → p.beforePatterns = true) ∧ (p'.inPattern = true → p.inPattern = true)

section DecodedSong

variable {q : Song} {v v' : LoadVars} {p p' : Phase}

theorem cellAddr_div (s r c : Nat) : cellAddr s r c / 576 = s % 32 := by
  unfold cellAddr; omega

theorem cellAddr_lt (s r c : Nat) : cellAddr s r c < 32 * 576 := by
  unfold cellAddr; omega

theorem Song.empty_decodedUpTo_hdr : Song.empty.DecodedUpTo v .hdr where
  promCanonical := rfl
  promInRange := by simp [Song.empty]
  ordersEmpty := by simp [Song.empty]
  instrumentsEmpty := by simp [Song.empty]
  gridsEmpty := by simp [Song.empty]
  lengthUnread _ := rfl
  orderInList := nofun
  gridsUnread _ := rfl
  slotAllocated := nofun

namespace Song.DecodedUpTo

theorem undefinedPartsEmpty (h : q.DecodedUpTo v p) (hp : p ≠ .irec) : q.UndefinedPartsEmpty :=
  ⟨h.ordersEmpty, fun e he => h.instrumentsEmpty e he fun hirec => absurd hirec hp, h.gridsEmpty⟩

/-- Going on to the next phase without touching the song. -/
theorem goOn (h : q.DecodedUpTo v p) (hp : p.LeadsTo p') (hslot : p'.inPattern = true → v'.slot = v.slot) :
    q.DecodedUpTo v' p' := by
  obtain ⟨hirec, hoent, horders, hpatterns, hin⟩ := hp
  exact { h with
    instrumentsEmpty := fun e he _ => h.instrumentsEmpty e he fun hp => absurd hp hirec
    lengthUnread := fun hp => h.lengthUnread (horders hp)
    orderInList := fun hp => absurd hp hoent
    gridsUnread := fun hp => h.gridsUnread (hpatterns hp)
    slotAllocated := fun hp => by simpa only [hslot hp] using h.slotAllocated (hin hp) }

theorem setHeader (h : q.DecodedUpTo v p) (slow : Bool) (speed : BitVec 5) :
    { q with slowTimer := slow, speed := speed }.DecodedUpTo v p := { h with }

/-- Only the entry being read changes, and that one is excepted (R137). -/
theorem setRecord (h : q.DecodedUpTo v .irec) (r : Vector Byte 11) (k : Fin 11) :
    { q with irom := q.irom.set v.entry r }.DecodedUpTo { v with byteNo := k } .irec :=
  { h with
    instrumentsEmpty := fun e he hne => by
      have hval : v.entry.val ≠ e.val := fun heq => hne rfl (Fin.ext heq.symm)
      simpa [Vector.getElem_set, hval] using h.instrumentsEmpty e he hne }

/-- The instrument read is loaded, so it is no longer an undefined one (R137). -/
theorem setLoaded (h : q.DecodedUpTo v .irec) :
    { q with iloaded := q.iloaded.set v.entry true }.DecodedUpTo v .islot :=
  { h with
    instrumentsEmpty := fun e he _ => by
      have hne : e ≠ v.entry := by rintro rfl; simp at he
      have hval : v.entry.val ≠ e.val := fun heq => hne (Fin.ext heq.symm)
      exact h.instrumentsEmpty e (by simpa [Vector.getElem_set, hval] using he) fun _ => hne
    orderInList := nofun
    slotAllocated := nofun }

/-- The order list is empty before its length is read, so it is empty past every length (R138). -/
theorem setLength (h : q.DecodedUpTo v .olen) (l : Byte) (hp' : p' = .oent → v'.orderNo.val < l.toNat)
    (hafter : p' = .oent ∨ p' = .pofs) : { q with songlen := l }.DecodedUpTo v' p' :=
  { h with
    ordersEmpty := fun i _ => h.ordersEmpty i (by simp [h.lengthUnread rfl])
    instrumentsEmpty := fun e he _ => h.instrumentsEmpty e he nofun
    lengthUnread := by rcases hafter with rfl | rfl <;> exact nofun
    orderInList := hp'
    gridsUnread := fun _ => h.gridsUnread rfl
    slotAllocated := by rcases hafter with rfl | rfl <;> exact nofun }

/-- The entry written lies below SONGLEN (R138). -/
theorem setOrder (h : q.DecodedUpTo v .oent) (e : Byte) (hp' : p' = .oent → v'.orderNo.val < q.songlen.toNat)
    (hafter : p' = .oent ∨ p' = .pofs) :
    { q with ordlist := q.ordlist.set v.orderNo e }.DecodedUpTo v' p' :=
  { h with
    ordersEmpty := fun i hi => by
      have hval : v.orderNo.val ≠ i.val := by have := h.orderInList rfl; dsimp only at hi; omega
      simpa [Vector.getElem_set, hval] using h.ordersEmpty i hi
    instrumentsEmpty := fun e he _ => h.instrumentsEmpty e he nofun
    lengthUnread := by rcases hafter with rfl | rfl <;> exact nofun
    orderInList := hp'
    gridsUnread := fun _ => h.gridsUnread rfl
    slotAllocated := by rcases hafter with rfl | rfl <;> exact nofun }

/-- While the offsets are read no cell has been written (R139). -/
theorem setOffset (h : q.DecodedUpTo v .pofs) (ofs : Half) :
    { q with pofs := q.pofs.set v.slot ofs }.DecodedUpTo v .pofs :=
  { h with
    gridsEmpty := by simp [h.gridsUnread rfl]
    slotAllocated := nofun }

/-- The walk enters an allocated slot (R140). -/
theorem enterPattern (h : q.DecodedUpTo v .slot) (hofs : q.pofs[v.slot] ≠ 0) : q.DecodedUpTo v .line :=
  { h with
    instrumentsEmpty := fun e he _ => h.instrumentsEmpty e he nofun
    lengthUnread := nofun
    orderInList := nofun
    gridsUnread := nofun
    slotAllocated := fun _ => hofs }

/-- A cell is written only into the allocated slot being walked (R146). -/
theorem setCell (h : q.DecodedUpTo v p) (hp : p.inPattern = true) (r c : Nat) (w : CellWord) :
    (writeCell q v.slot.val r c w).DecodedUpTo v p :=
  { h with
    promCanonical := wf_writeCell _ _ _ _ h.promCanonical
    promInRange := fun e he => by
      rcases Store.mem_write 0 he with rfl | he
      · exact cellAddr_lt _ _ _
      · exact h.promInRange e he
    gridsEmpty := fun e he => by
      rcases Store.mem_write 0 he with rfl | he
      · change isAllocated q (BitVec.ofNat 5 (cellAddr _ _ _ / 576)) = true
        simpa [cellAddr_div, isAllocated, patternOffset, Nat.mod_eq_of_lt v.slot.isLt] using h.slotAllocated hp
      · exact h.gridsEmpty e he
    gridsUnread := fun hb => by cases p <;> cases hp <;> cases hb }

end Song.DecodedUpTo

end DecodedSong

/-! ## What each token of a LOAD does to it (spec/40_load.md R133 to R148) -/

/-- From `s` the LOAD goes on at `t`, past the header: only the song, the locals and the phase have changed, and the
song is decoded up to the new phase. -/
def Decodes (s t : State) : Prop :=
  ∃ p, p ≠ .hdr ∧ t.song.DecodedUpTo t.vars p ∧ t = { s with song := t.song, vars := t.vars, engine := .load p }

section Tokens

variable {s t : State}

theorem Decodes.goOn {p p' : Phase} (h : s.song.DecodedUpTo s.vars p) (hp : p.LeadsTo p') (hhdr : p' ≠ .hdr) :
    Decodes s { s with engine := .load p' } :=
  ⟨p', hhdr, h.goOn hp fun _ => rfl, rfl⟩

theorem exec_decodeHdr_decodes (h : s.song.DecodedUpTo s.vars .hdr) {b : Byte}
    (hx : exec (decodeHdr b) s = .next t) : Decodes s t := by
  cases hx
  have hsong := h.setHeader (b.getLsbD 6) (b.extractLsb 4 0)
  refine ⟨if b.getLsbD 7 then .desc else .islot, ?_, ?_, rfl⟩
  · split <;> decide
  · split <;> exact hsong.goOn (by decide) nofun

theorem exec_decodeDesc_decodes (h : s.song.DecodedUpTo s.vars .desc) {b : Byte}
    (hx : exec (decodeDesc b) s = .next t) : Decodes s t := by
  unfold decodeDesc at hx
  split at hx <;> cases hx
  · exact .goOn h (by decide) (by decide)
  · exact .goOn h (by decide) (by decide)

/-- An instrument slot byte is the one token that can be refused (R136). -/
theorem exec_decodeIslot_decodes (h : s.song.DecodedUpTo s.vars .islot) {b : Byte}
    (hx : exec (decodeIslot b) s = .next t) : Decodes s t ∨ t = faultEntry .malformedModule s := by
  unfold decodeIslot at hx
  split_ifs at hx
  · cases hx; exact .inl (.goOn h (by decide) (by decide))
  · change execIslot _ s = _ at hx
    unfold execIslot at hx
    split at hx <;> cases hx
    · exact .inl ⟨.irec, by decide, h.goOn (by decide) nofun, rfl⟩
    · exact .inl (.goOn h (by decide) (by decide))
  · cases hx; exact .inr rfl

theorem execIrecByte_decodes (h : s.song.DecodedUpTo s.vars .irec) {b : Byte}
    (hx : execIrecByte b s = .next t) : Decodes s t := by
  unfold execIrecByte at hx
  dsimp only at hx
  split at hx <;> cases hx
  · exact ⟨.irec, by decide, h.setRecord _ _, rfl⟩
  · exact ⟨.islot, by decide, (h.setRecord _ s.vars.byteNo).setLoaded, rfl⟩

theorem execOlen_decodes (h : s.song.DecodedUpTo s.vars .olen) {l : Byte}
    (hx : execOlen l s = .next t) : Decodes s t := by
  unfold execOlen at hx
  dsimp only at hx
  split at hx <;> cases hx
  · exact ⟨.pofs, by decide, h.setLength l nofun (.inr rfl), rfl⟩
  · next hl =>
    have hpos : 0 < l.toNat := Nat.pos_of_ne_zero fun h0 => hl (BitVec.eq_of_toNat_eq h0)
    exact ⟨.oent, by decide, h.setLength l (fun _ => hpos) (.inl rfl), rfl⟩

theorem execOent_decodes (h : s.song.DecodedUpTo s.vars .oent) {e : Byte}
    (hx : execOent e s = .next t) : Decodes s t := by
  unfold execOent at hx
  dsimp only at hx
  split at hx <;> cases hx
  · next hmore => exact ⟨.oent, by decide, h.setOrder e (fun _ => hmore) (.inl rfl), rfl⟩
  · exact ⟨.pofs, by decide, h.setOrder e nofun (.inr rfl), rfl⟩

theorem storeOffset_decodes (h : s.song.DecodedUpTo s.vars .pofs) (ofs : Half) : Decodes s (storeOffset ofs s) := by
  have hsong := h.setOffset ofs
  unfold storeOffset
  dsimp only
  split
  · exact ⟨.pofs, by decide, hsong.goOn (by decide) nofun, rfl⟩
  · exact ⟨.slot, by decide, hsong.goOn (by decide) nofun, rfl⟩

theorem exec_decodePofs_decodes (h : s.song.DecodedUpTo s.vars .pofs) {w : Half}
    (hx : exec (decodePofs w) s = .next t) : Decodes s t := by
  unfold decodePofs at hx
  split at hx <;> cases hx <;> exact storeOffset_decodes h _

theorem exec_decodeLine_decodes (h : s.song.DecodedUpTo s.vars .line) {b : Byte}
    (hx : exec (decodeLine b) s = .next t) : Decodes s t := by
  unfold decodeLine at hx
  split at hx <;> cases hx <;> exact ⟨.chan, by decide, h.goOn (by decide) fun _ => rfl, rfl⟩

theorem exec_decodeChan_decodes (h : s.song.DecodedUpTo s.vars .chan) {b : Byte}
    (hx : exec (decodeChan b) s = .next t) : Decodes s t := by
  unfold decodeChan at hx
  split at hx <;> cases hx <;> exact ⟨.note, by decide, h.goOn (by decide) fun _ => rfl, rfl⟩

theorem nextSlot_decodes {p : Phase} (h : s.song.DecodedUpTo s.vars p) (hslot : p.LeadsTo .slot)
    (hend : p.LeadsTo .validate) : Decodes s (nextSlot s) := by
  unfold nextSlot
  split
  · exact ⟨.slot, by decide, h.goOn hslot nofun, rfl⟩
  · exact .goOn h hend (by decide)

theorem endCell_decodes (h : s.song.DecodedUpTo s.vars .param) : Decodes s (endCell s) := by
  unfold endCell
  split_ifs
  · exact nextSlot_decodes h (by decide) (by decide)
  · exact .goOn h (by decide) (by decide)
  · exact .goOn h (by decide) (by decide)

/-- A cell written into the slot being walked, and the walk going on. -/
theorem endCell_storeCell_decodes (h : s.song.DecodedUpTo s.vars .param) (inst : BitVec 5) (oct : BitVec 3)
    (note eff : BitVec 4) (param : Byte) : Decodes s (endCell (storeCell inst oct note eff param s)) := by
  obtain ⟨p, hp, hsong, ht⟩ := endCell_decodes (s := storeCell inst oct note eff param s) (h.setCell rfl _ _ _)
  exact ⟨p, hp, hsong, ht⟩

theorem exec_decodeNote_decodes (h : s.song.DecodedUpTo s.vars .note) {n : Half}
    (hx : exec (decodeNote n) s = .next t) : Decodes s t := by
  unfold decodeNote at hx
  split at hx <;> cases hx
  · exact endCell_storeCell_decodes (h.goOn (by decide) fun _ => rfl) _ _ _ _ _
  · exact ⟨.param, by decide, h.goOn (by decide) fun _ => rfl, rfl⟩

theorem execParam_decodes (h : s.song.DecodedUpTo s.vars .param) {b : Byte}
    (hx : execParam b s = .next t) : Decodes s t := by
  cases hx
  exact endCell_storeCell_decodes h _ _ _ _ _

end Tokens

/-- Every token LOAD fetches is decoded into the song, or is refused as malformed. -/
theorem fetchedToken_decodes {s t u : State} {p : Phase} {i : Instr} (hf : loadFetch s p = .instr i u)
    (h : u.song.DecodedUpTo u.vars p) (hx : exec i u = .next t) :
    Decodes u t ∨ t = faultEntry .malformedModule u := by
  cases p with
  | hdr => cases hf; exact .inl (exec_decodeHdr_decodes h hx)
  | desc => obtain ⟨b, rfl⟩ := byteToken_eq_instr hf; exact .inl (exec_decodeDesc_decodes h hx)
  | islot => obtain ⟨b, rfl⟩ := byteToken_eq_instr hf; exact exec_decodeIslot_decodes h hx
  | irec => obtain ⟨b, rfl⟩ := byteToken_eq_instr hf; exact .inl (execIrecByte_decodes h hx)
  | olen => obtain ⟨b, rfl⟩ := byteToken_eq_instr hf; exact .inl (execOlen_decodes h hx)
  | oent => obtain ⟨b, rfl⟩ := byteToken_eq_instr hf; exact .inl (execOent_decodes h hx)
  | pofs => obtain ⟨w, rfl⟩ := wordToken_eq_instr hf; exact .inl (exec_decodePofs_decodes h hx)
  | slot => cases hf
  | line => obtain ⟨b, rfl⟩ := byteToken_eq_instr hf; exact .inl (exec_decodeLine_decodes h hx)
  | chan => obtain ⟨b, rfl⟩ := byteToken_eq_instr hf; exact .inl (exec_decodeChan_decodes h hx)
  | note => obtain ⟨n, rfl⟩ := noteToken_eq_instr hf; exact .inl (exec_decodeNote_decodes h hx)
  | param => obtain ⟨b, rfl⟩ := byteToken_eq_instr hf; exact .inl (execParam_decodes h hx)
  | validate => cases hf

/-! ## What the reader does to a running LOAD (spec/40_load.md R149) -/

/-- From `s` to `u` bytes are read: only POS and EOS change, and POS stays inside the image (R64). -/
def ReaderMoves (s u : State) : Prop :=
  u = { s with pos := u.pos, eos := u.eos } ∧ (s.pos ≤ s.romLen → u.pos ≤ u.romLen)

section Reader

variable {s t u : State}

theorem ReaderMoves.trans (hst : ReaderMoves s t) (htu : ReaderMoves t u) : ReaderMoves s u := by
  obtain ⟨hs, hsin⟩ := hst
  obtain ⟨ht, htin⟩ := htu
  exact ⟨by rw [ht, hs], fun h => htin (hsin h)⟩

theorem readByte_readerMoves (s : State) : ReaderMoves s (readByte s).2 := by
  refine ⟨readByte_frame s, fun h => ?_⟩
  by_cases hpos : s.pos < s.romLen
  · simpa [readByte_inside hpos] using hpos
  · simpa [readByte_past (Nat.not_lt.1 hpos)] using h

theorem readWord_readerMoves (s : State) : ReaderMoves s (readWord s).2 :=
  (readByte_readerMoves s).trans (readByte_readerMoves _)

/-- A token checked after its last read leaves EOS clear. -/
theorem checkEos_eos {k : State → Fetched} {i : Instr} (h : checkEos s k = .instr i t) : s.eos = false := by
  unfold checkEos at h
  split at h
  · cases h
  · next heos => exact Bool.eq_false_iff.2 heos

/-- Where CheckEOS fetches no instruction it fails the LOAD, or what comes after it does not fetch one. -/
theorem checkEos_settled {k : State → Fetched} {o : Result} (h : checkEos s k = .settled o) :
    (s.eos = true ∧ o = raiseFault .truncatedInput s) ∨ k s = .settled o := by
  unfold checkEos at h
  split at h
  · next heos => cases h; exact .inl ⟨heos, rfl⟩
  · exact .inr h

theorem byteToken_readerMoves {d : Byte → Instr} {i : Instr} (h : byteToken d s = .instr i u) :
    ReaderMoves s u ∧ u.eos = false := by
  have heos := checkEos_eos h
  cases checkEos_eq_instr h
  exact ⟨readByte_readerMoves s, heos⟩

theorem wordToken_readerMoves {d : Half → Instr} {i : Instr} (h : wordToken d s = .instr i u) :
    ReaderMoves s u ∧ u.eos = false := by
  have heos := checkEos_eos h
  cases checkEos_eq_instr h
  exact ⟨readWord_readerMoves s, heos⟩

theorem noteToken_readerMoves {i : Instr} (h : noteToken s = .instr i u) : ReaderMoves s u ∧ u.eos = false := by
  unfold noteToken at h
  have hlast := checkEos_eq_instr h
  have heos := checkEos_eos hlast
  cases checkEos_eq_instr hlast
  exact ⟨(readByte_readerMoves s).trans (readByte_readerMoves _), heos⟩

/-- Every token but the header's is fetched with EOS clear; the header's is when its byte is in the image (R133). -/
theorem loadFetch_readerMoves {p : Phase} {i : Instr} (h : loadFetch s p = .instr i u) (heos : s.eos = false)
    (hhdr : p = .hdr → s.pos < s.romLen) : ReaderMoves s u ∧ u.eos = false := by
  cases p with
  | hdr =>
    cases h
    exact ⟨readByte_readerMoves s, by simp [readByte_inside (hhdr rfl), heos]⟩
  | desc | islot | irec | olen | oent | line | chan | param => exact byteToken_readerMoves h
  | pofs => exact wordToken_readerMoves h
  | slot => cases h
  | note => exact noteToken_readerMoves h
  | validate => cases h

/-- The LOAD fails because a read ran past the end of the image (R149, R241). -/
def Truncates (s : State) (o : Result) : Prop :=
  ∃ u, ReaderMoves s u ∧ u.eos = true ∧ o = raiseFault .truncatedInput u

theorem byteToken_truncates {d : Byte → Instr} {o : Result} (h : byteToken d s = .settled o) : Truncates s o := by
  obtain ⟨heos, rfl⟩ | h := checkEos_settled h
  · exact ⟨_, readByte_readerMoves s, heos, rfl⟩
  · cases h

theorem wordToken_truncates {d : Half → Instr} {o : Result} (h : wordToken d s = .settled o) : Truncates s o := by
  obtain ⟨heos, rfl⟩ | h := checkEos_settled h
  · exact ⟨_, readWord_readerMoves s, heos, rfl⟩
  · cases h

theorem noteToken_truncates {o : Result} (h : noteToken s = .settled o) : Truncates s o := by
  unfold noteToken at h
  obtain ⟨heos, rfl⟩ | h := checkEos_settled h
  · exact ⟨_, readByte_readerMoves s, heos, rfl⟩
  · obtain ⟨heos, rfl⟩ | h := checkEos_settled h
    · exact ⟨_, (readByte_readerMoves s).trans (readByte_readerMoves _), heos, rfl⟩
    · cases h

/-- Where LOAD fetches no token it walks a slot, validates the song, or has run past the end of the image. -/
theorem loadFetch_settled {p : Phase} {o : Result} (h : loadFetch s p = .settled o) :
    (p = .slot ∧ o = slotStep s) ∨ (p = .validate ∧ o = validateStep s) ∨ Truncates s o := by
  cases p with
  | hdr => cases h
  | desc | islot | irec | olen | oent | line | chan | param => exact .inr (.inr (byteToken_truncates h))
  | pofs => exact .inr (.inr (wordToken_truncates h))
  | slot => cases h; exact .inl ⟨rfl, rfl⟩
  | note => exact .inr (.inr (noteToken_truncates h))
  | validate => cases h; exact .inr (.inl ⟨rfl, rfl⟩)

end Reader

/-! ## What a LOAD answers (spec/40_load.md R130 to R158) -/

/-- A state inside the LOAD begun in `s₀`: LOAD has written nothing but the song, the reader, the locals and the phase,
and POS is inside the image. -/
def InsideLoad (s₀ s : State) : Prop :=
  s = { initLoad s₀ with song := s.song, pos := s.pos, eos := s.eos, vars := s.vars, engine := s.engine } ∧
    s.pos ≤ s.romLen

/-- The LOAD begun in `s₀` goes on at `s`. -/
def LoadRunning (s₀ s : State) : Prop :=
  ∃ p, s.engine = .load p ∧ InsideLoad s₀ s ∧ s.eos = false ∧ (p = .hdr → s.pos < s.romLen) ∧
    s.song.DecodedUpTo s.vars p

/-- The LOAD begun in `s₀` has failed (R243), EOS telling the code (R27). -/
def LoadFailed (s₀ t : State) : Prop :=
  ∃ e u, InsideLoad s₀ u ∧ (u.eos = true ∧ e = .truncatedInput ∨ u.eos = false ∧ e = .malformedModule) ∧
    t = faultEntry e u

/-- The LOAD begun in `s₀` has committed a validated song (R153). -/
def LoadCommitted (s₀ t : State) : Prop :=
  ∃ u, InsideLoad s₀ u ∧ u.eos = false ∧ u.song.DecodedUpTo u.vars .validate ∧ u.song.Playable ∧ t = commitLoad u

/-- Where the LOAD begun in `s₀` may stand. -/
def LoadReaches (s₀ t : State) : Prop := LoadRunning s₀ t ∨ LoadFailed s₀ t ∨ LoadCommitted s₀ t

section Load

variable {s₀ s t u : State}

theorem InsideLoad.readerMoves (h : InsideLoad s₀ s) (hu : ReaderMoves s u) : InsideLoad s₀ u := by
  obtain ⟨hs, hpos⟩ := h
  obtain ⟨hu, huin⟩ := hu
  exact ⟨by rw [hu, hs], huin hpos⟩

/-- What LOAD never writes (R43). -/
theorem InsideLoad.keeps (h : InsideLoad s₀ s) :
    s.loop = s₀.loop ∧ s.rom = s₀.rom ∧ s.romLen = s₀.romLen ∧ s.host = s₀.host := by
  rw [h.1]; exact ⟨rfl, rfl, rfl, rfl⟩

theorem LoadReaches.malformed (h : InsideLoad s₀ u) (heos : u.eos = false) :
    LoadReaches s₀ (faultEntry .malformedModule u) :=
  .inr (.inl ⟨_, u, h, .inr ⟨heos, rfl⟩, rfl⟩)

theorem Decodes.loadReaches (hu : InsideLoad s₀ u) (heos : u.eos = false) (h : Decodes u t) : LoadReaches s₀ t := by
  obtain ⟨p, hp, hsong, ht⟩ := h
  obtain ⟨hu, hpos⟩ := hu
  refine .inl ⟨p, by rw [ht], ⟨by rw [ht, hu], by rw [ht]; exact hpos⟩, by rw [ht]; exact heos,
    fun h => absurd h hp, hsong⟩

theorem slotStep_loadReaches (hs : InsideLoad s₀ s) (heos : s.eos = false)
    (hsong : s.song.DecodedUpTo s.vars .slot) (h : slotStep s = .next t) : LoadReaches s₀ t := by
  unfold slotStep at h
  dsimp only at h
  split_ifs at h with hunused hpast <;> cases h
  · exact (nextSlot_decodes hsong (by decide) (by decide)).loadReaches hs heos
  · exact .malformed hs heos
  · exact .inl ⟨.line, rfl, ⟨by rw [hs.1]; rfl, (Nat.not_le.1 hpast).le⟩, heos, nofun, hsong.enterPattern hunused⟩

theorem validateStep_loadReaches (hs : InsideLoad s₀ s) (heos : s.eos = false)
    (hsong : s.song.DecodedUpTo s.vars .validate) (h : validateStep s = .next t) : LoadReaches s₀ t := by
  unfold validateStep at h
  split_ifs at h with hspeed hlen horders <;> cases h
  · exact .malformed hs heos
  · exact .malformed hs heos
  · have hplay : s.song.Playable :=
      ⟨Nat.pos_of_ne_zero fun h0 => hspeed (BitVec.eq_of_toNat_eq h0),
        Nat.pos_of_ne_zero fun h0 => hlen (BitVec.eq_of_toNat_eq h0), List.all_eq_true.1 horders⟩
    exact .inr (.inr ⟨s, hs, heos, hsong, hplay, rfl⟩)
  · exact .malformed hs heos

theorem Truncates.loadReaches {o : Result} (hs : InsideLoad s₀ s) (h : Truncates s o) (ho : o = .next t) :
    LoadReaches s₀ t := by
  obtain ⟨u, hu, heos, rfl⟩ := h
  cases ho
  exact .inr (.inl ⟨_, u, hs.readerMoves hu, .inl ⟨heos, rfl⟩, rfl⟩)

theorem LoadRunning.innerStep_reaches (hs : LoadRunning s₀ s) (h : innerStep s = .next t) : LoadReaches s₀ t := by
  obtain ⟨p, hp, hin, heos, hhdr, hsong⟩ := hs
  have hrun : s.engine ≠ .idle := by simp [hp]
  rw [← step_eq_innerStep hrun] at h
  simp only [step, fetch, hp] at h
  cases hf : loadFetch s p with
  | instr i u =>
    rw [hf] at h
    obtain ⟨hu, hueos⟩ := loadFetch_readerMoves hf heos hhdr
    have huin := hin.readerMoves hu
    have husong : u.song.DecodedUpTo u.vars p := by rw [hu.1]; exact hsong
    obtain hdec | rfl := fetchedToken_decodes hf husong h
    · exact hdec.loadReaches huin hueos
    · exact .malformed huin hueos
  | settled o =>
    rw [hf] at h
    obtain ⟨rfl, rfl⟩ | ⟨rfl, rfl⟩ | htrunc := loadFetch_settled hf
    · exact slotStep_loadReaches hin heos hsong h
    · exact validateStep_loadReaches hin heos hsong h
    · exact htrunc.loadReaches hin h

theorem LoadReaches.innerStep_reaches (hrun : s.engine ≠ .idle) (hs : LoadReaches s₀ s) (h : innerStep s = .next t) :
    LoadReaches s₀ t := by
  obtain hs | ⟨e, u, _, _, rfl⟩ | ⟨u, _, _, _, _, rfl⟩ := hs
  · exact hs.innerStep_reaches h
  · exact absurd rfl hrun
  · exact absurd rfl hrun

theorem loadStart_running (hlen : 18 ≤ s.romLen) : LoadRunning s (loadStart s) :=
  ⟨.hdr, rfl, ⟨rfl, Nat.le_of_lt hlen⟩, rfl, fun _ => hlen, Song.empty_decodedUpTo_hdr⟩

/-- What a LOAD can do: it fails by fault entry or commits a validated song. -/
theorem execLoad_cases (h : execLoad s = .next t) : LoadFailed s t ∨ LoadCommitted s t := by
  unfold execLoad at h
  split_ifs at h with hlen
  · cases h
    exact .inl ⟨_, initLoad s, ⟨rfl, Nat.zero_le _⟩, .inr ⟨rfl, rfl⟩, rfl⟩
  · have hend := runRequest_ends h
    obtain ⟨p, hp, _⟩ | hdone := runRequest_keeps_of_running (P := LoadReaches s)
      (fun _ _ => LoadReaches.innerStep_reaches) (.inl (loadStart_running (Nat.not_lt.1 hlen))) h
    · simp [hend] at hp
    · exact hdone

end Load

/-! ## What a TICK and the other requests answer (spec/41_playback.md R170 to R181, spec/42_host.md R210 to R215) -/

/-- A state inside the TICK begun in `s₀`: the boundary flags are cleared, and but for them TICK has written only its
working fields. -/
def InsideTick (s₀ s : State) : Prop :=
  s = { clearBoundaries s₀ with engine := s.engine, chan := s.chan, cmds := s.cmds }

/-- The TICK begun in `s₀` has ended: it has run the tick advance and answered (R181). -/
def TickEnded (s₀ t : State) : Prop :=
  ∃ u v, InsideTick s₀ u ∧ tickAdvance u = .next v ∧ t = respond .ok v.status v.cmds (endRequest v)

/-- Where the TICK begun in `s₀` may stand. -/
def TickReaches (s₀ s : State) : Prop :=
  match s.engine with
  | .cells _ | .tickEnd => InsideTick s₀ s
  | .idle => TickEnded s₀ s
  | .load _ | .emit _ => False

/-- Nothing but LOOP and the response changes from `s` to `t`. -/
def OnlyLoopAndResponse (s t : State) : Prop := t = { s with loop := t.loop, response := t.response }

/-- Nothing but the response changes from `s` to `t`. -/
def OnlyResponse (s t : State) : Prop := t = { s with response := t.response }

/-- The state a RESET leaves (R211, R42). -/
def afterReset (s : State) : State :=
  respondStatus { State.reset with rom := s.rom, romLen := s.romLen, host := s.host }

/-- What a request that answers a next state can have done. -/
inductive RequestOutcome (s t : State) : Prop where
  | reset (h : t = afterReset s)
  | loadFailed (h : LoadFailed s t)
  | loadCommitted (h : LoadCommitted s t)
  | tick (hplaying : s.seq = .playing) (h : TickEnded s t)
  | answer (h : OnlyLoopAndResponse s t)

section Requests

variable {s₀ s t : State}

theorem Emits.insideTick {n : Nat} (hs : InsideTick s₀ s) (h : Emits n s t) : InsideTick s₀ t := by
  obtain ⟨ws, _, rfl⟩ := h
  unfold InsideTick at hs ⊢
  rw [hs]

theorem InsideTick.tickReaches_cell {c : Fin 9} (h : InsideTick s₀ t) (he : t.engine = afterCell c) :
    TickReaches s₀ t := by
  unfold afterCell at he
  split at he <;> simpa only [TickReaches, he] using h

theorem startTick_tickReaches (s : State) : TickReaches s (startTick s) := by
  unfold startTick TickReaches
  split_ifs <;> rfl

theorem TickReaches.innerStep_reaches (hrun : s.engine ≠ .idle) (hs : TickReaches s₀ s) (h : innerStep s = .next t) :
    TickReaches s₀ t := by
  unfold TickReaches at hs
  split at hs
  case h_1 c he =>
    have hemit := innerStep_cells he h
    have hfetched : InsideTick s₀ { s with chan := c, engine := afterCell c } := by
      unfold InsideTick at hs ⊢; rw [hs]
    exact (hemit.insideTick hfetched).tickReaches_cell hemit.engine
  case h_2 he =>
    rw [innerStep_tickEnd he] at h
    obtain ⟨v, hv, h⟩ := andThen_eq_next.1 h
    cases h
    exact ⟨s, v, hs, hv, rfl⟩
  case h_3 he => exact absurd he hrun
  case h_4 => exact hs.elim
  case h_5 => exact hs.elim

theorem execTick_playing (hplaying : s.seq = .playing) (h : execTick s = .next t) : TickEnded s t := by
  simp only [execTick, hplaying] at h
  have hend := runRequest_keeps_of_running (P := TickReaches s) (fun _ _ => TickReaches.innerStep_reaches)
    (startTick_tickReaches s) h
  simpa only [TickReaches, runRequest_ends h] using hend

theorem execTick_notPlaying (hseq : s.seq ≠ .playing) (h : execTick s = .next t) : OnlyResponse s t := by
  unfold execTick at h
  split at h
  case h_1 => cases h; rfl
  case h_2 => cases h; rfl
  case h_3 hplaying => exact absurd hplaying hseq

theorem OnlyResponse.onlyLoopAndResponse (h : OnlyResponse s t) : OnlyLoopAndResponse s t := by
  unfold OnlyResponse at h; rw [h]; rfl

theorem decodeReq_fmt (w : ReqWord) : (encode (decodeReq w)).fmt = .req := by
  unfold decodeReq; dsimp only
  split_ifs <;> rfl

/-- A request of OP 4 or above is RDREG or a refused one (R213, R214). -/
theorem exec_decodeReq_of_high {w : ReqWord} (hop : 4 ≤ w.toNat / 4096) (h : exec (decodeReq w) s = .next t) :
    OnlyResponse s t := by
  have hne : ∀ n : BitVec 4, n.toNat < 4 → w.extractLsb 15 12 ≠ n := fun n hn heq => by
    have hval : (w.extractLsb 15 12).toNat = w.toNat / 4096 := by
      have := w.isLt
      simp [BitVec.extractLsb_toNat, Nat.shiftRight_eq_div_pow]; omega
    rw [heq] at hval
    omega
  simp only [decodeReq, hne 0 (by decide), hne 1 (by decide), hne 2 (by decide), hne 3 (by decide), if_false] at h
  split_ifs at h <;> cases h <;> rfl

theorem exec_req_outcome {i : Instr} (hi : (encode i).fmt = .req) (h : exec i s = .next t) : RequestOutcome s t := by
  cases i with
  | reset => cases h; exact .reset rfl
  | load => exact (execLoad_cases h).elim .loadFailed .loadCommitted
  | tick =>
    by_cases hplaying : s.seq = .playing
    · exact .tick hplaying (execTick_playing hplaying h)
    · exact .answer (execTick_notPlaying hplaying h).onlyLoopAndResponse
  | wrctrl | rdreg | rdregReservedReg | reservedOp5 | reservedOp6 | reservedOp7 | reservedOp8F | illegalOperand =>
    cases h; exact .answer rfl
  | _ => cases hi

/-- A step between requests: nothing, an image placed in the ROM, or a request. -/
theorem step_idle_cases (hidle : s.engine = .idle) (h : step s = .next t) :
    t = s ∨ (∃ bytes rest, placeImage bytes { s with host := rest } = .next t) ∨
      ∃ rest, RequestOutcome { s with host := rest } t := by
  simp only [step, fetch, hidle] at h
  cases hhost : s.host with
  | nil => simp only [hostFetch, hhost] at h; cases h; exact .inl rfl
  | cons a rest =>
    cases a with
    | request w => simp only [hostFetch, hhost] at h; exact .inr (.inr ⟨rest, exec_req_outcome (decodeReq_fmt w) h⟩)
    | image bytes => simp only [hostFetch, hhost] at h; exact .inr (.inl ⟨bytes, rest, h⟩)

theorem placeImage_eq_next {bytes : List Byte} (h : placeImage bytes s = .next t) :
    bytes.length ≤ 2 ^ Config.romAddrW ∧
      t = { s with rom := Memory.ofBytes 0 bytes, romLen := bytes.length } := by
  unfold placeImage at h
  split_ifs at h with hlen
  cases h
  refine ⟨?_, rfl⟩
  have hmin : 2 ^ 16 ≤ 2 ^ Config.romAddrW := Nat.pow_le_pow_right (by decide) (Nat.le_add_right _ _)
  simp only [Bool.or_eq_true, decide_eq_true_eq] at hlen
  omega

end Requests

/-! ## The invariant of the block (spec/10_state.md R24, R27, R39) -/

section Invariant

variable {s t u : State}

theorem Song.empty_undefinedPartsEmpty : Song.empty.UndefinedPartsEmpty :=
  (Song.empty_decodedUpTo_hdr (v := .initial)).undefinedPartsEmpty (by decide)

theorem State.reset_inv : State.reset.Inv := by
  refine ⟨⟨rfl, rfl, rfl, rfl⟩, ⟨rfl, rfl, rfl, rfl, rfl, rfl, rfl⟩, ⟨rfl, ?_, Nat.zero_le _, rfl, ?_, Nat.zero_le _⟩,
    ⟨nofun, ⟨nofun, nofun⟩, nofun⟩⟩
  · simp [State.reset]
  · simp [State.reset, Song.empty]

/-- A LOAD leaves the ROM as it found it and POS inside it. -/
theorem InsideLoad.readerCanonical (hs : s.StoresCanonical) (hu : InsideLoad s u) :
    Memory.wf u.rom = true ∧ (∀ e ∈ u.rom, e.1 < u.romLen) ∧ u.romLen ≤ 2 ^ Config.romAddrW ∧
      u.pos ≤ 2 ^ Config.romAddrW := by
  obtain ⟨hrom, hkeys, hlen, -, -, -⟩ := hs
  obtain ⟨-, hromEq, hlenEq, -⟩ := hu.keeps
  have hpos := hu.2
  rw [hlenEq] at hpos ⊢
  rw [hromEq]
  exact ⟨hrom, hkeys, hlen, hpos.trans hlen⟩

theorem LoadFailed.inv (hs : s.StoresCanonical) (h : LoadFailed s t) : t.Inv := by
  obtain ⟨e, u, hu, hcode, rfl⟩ := h
  obtain ⟨hrom, hkeys, hlen, hpos⟩ := hu.readerCanonical hs
  refine ⟨⟨rfl, rfl, rfl, rfl⟩, ⟨rfl, rfl, rfl, rfl, rfl, rfl, rfl⟩, ⟨hrom, hkeys, hlen, rfl, nofun, hpos⟩, ?_⟩
  obtain ⟨heos, rfl⟩ | ⟨heos, rfl⟩ := hcode <;> simp [State.ErrConsistent, heos]

theorem LoadCommitted.inv (hs : s.StoresCanonical) (h : LoadCommitted s t) : t.Inv := by
  obtain ⟨u, hu, heos, hsong, hplay, rfl⟩ := h
  obtain ⟨hrom, hkeys, hlen, hpos⟩ := hu.readerCanonical hs
  have ⟨hspeed, hlength, _⟩ := hplay
  exact ⟨⟨rfl, rfl, rfl, rfl⟩, ⟨hplay, hlength, hspeed, rfl⟩,
    ⟨hrom, hkeys, hlen, hsong.promCanonical, hsong.promInRange, hpos⟩,
    ⟨nofun, ⟨fun h => absurd (heos.symm.trans h) nofun, nofun⟩, fun _ => rfl⟩⟩

theorem afterReset_inv (hs : s.StoresCanonical) : (afterReset s).Inv := by
  obtain ⟨hrom, hkeys, hlen, -, -, -⟩ := hs
  obtain ⟨hbetween, hsong, ⟨-, -, -, hprom, hcells, hpos⟩, herr⟩ := State.reset_inv
  exact ⟨hbetween, hsong, ⟨hrom, hkeys, hlen, hprom, hcells, hpos⟩, herr⟩

theorem OnlyLoopAndResponse.inv (hs : s.Inv) (h : OnlyLoopAndResponse s t) : t.Inv := by
  rw [h]; exact hs

/-- The host's list is no part of the invariant. -/
theorem State.Inv.withHost (hs : s.Inv) (rest : List HostAction) : { s with host := rest }.Inv := hs

theorem placeImage_inv {bytes : List Byte} (hs : s.Inv) (h : placeImage bytes s = .next t) : t.Inv := by
  obtain ⟨hlen, rfl⟩ := placeImage_eq_next h
  obtain ⟨hbetween, hsong, ⟨-, -, -, hprom, hcells, hpos⟩, herr⟩ := hs
  exact ⟨hbetween, hsong, ⟨Memory.wf_ofBytes 0 bytes,
    fun e he => by simpa using (Memory.mem_ofBytes he).2, hlen, hprom, hcells, hpos⟩, herr⟩

theorem songConsistent_of_playing (hseq : s.seq = .playing) (hplay : s.song.Playable) (hpos : s.PositionInSong) :
    s.SongConsistent := by
  simp only [State.SongConsistent, hseq]; exact ⟨hplay, hpos⟩

theorem songConsistent_of_ended (hseq : s.seq = .ended) (hplay : s.song.Playable) (hpos : s.PositionInSong)
    (hrow : s.row = 0) (htick : s.tickcnt = 0) (hlast : s.order.toNat + 1 = s.song.songlen.toNat)
    (hrowb : s.rowBoundary = true) (horderb : s.orderBoundary = true) : s.SongConsistent := by
  simp only [State.SongConsistent, hseq]; exact ⟨hplay, hpos, hrow, htick, hlast, hrowb, horderb⟩

theorem songConsistent_playing (h : s.SongConsistent) (hseq : s.seq = .playing) :
    s.song.Playable ∧ s.PositionInSong := by
  simpa only [State.SongConsistent, hseq] using h

/-- A row wrap leaves an order position in the list, and ends the song only at the last one (R180). -/
theorem orderAdvance_eq (horder : s.order.toNat < s.song.songlen.toNat) :
    ∃ o q, orderAdvance s = { s with order := o, seq := q } ∧ o.toNat < s.song.songlen.toNat ∧
      (q = s.seq ∨ q = .ended ∧ o.toNat + 1 = s.song.songlen.toNat) := by
  have hlen := s.song.songlen.isLt
  unfold orderAdvance
  split_ifs with hmore
  · exact ⟨_, s.seq, rfl, by rw [BitVec.toNat_ofNat]; omega, .inl rfl⟩
  · exact ⟨0, s.seq, rfl, Nat.zero_lt_of_lt horder, .inl rfl⟩
  · exact ⟨s.order, .ended, rfl, horder, .inr ⟨rfl, by omega⟩⟩

/-- Resolving an order position makes CURPAT agree with it (R31, R186). -/
theorem resolvePattern_eq_next (h : resolvePattern s = .next t) :
    ∃ c, t = { s with curpat := c } ∧ s.song.ordlist[s.order.toNat]?.map slotOf = some c := by
  unfold resolvePattern at h
  split at h <;> cases h
  next horder => exact ⟨_, rfl, by simp [horder]⟩

/-- A row wrap leads to the next order position, back to the first, or to the end of the song (R180). -/
theorem orderWrap_songConsistent (h : resolvePattern (orderAdvance s) = .next t) (hseq : s.seq = .playing)
    (hplay : s.song.Playable) (hpos : s.PositionInSong) (hrow : s.row = 0) (htick : s.tickcnt = 0)
    (hrowb : s.rowBoundary = true) (horderb : s.orderBoundary = true) : t.SongConsistent := by
  obtain ⟨horder, hspeed, -⟩ := hpos
  obtain ⟨o, q, ho, hlist, hend⟩ := orderAdvance_eq horder
  rw [ho] at h
  obtain ⟨c, rfl, hcurpat⟩ := resolvePattern_eq_next h
  obtain rfl | ⟨rfl, hlast⟩ := hend
  · exact songConsistent_of_playing hseq hplay ⟨hlist, hspeed, hcurpat⟩
  · exact songConsistent_of_ended rfl hplay ⟨hlist, hspeed, hcurpat⟩ hrow htick hlast hrowb horderb

theorem rowAdvance_songConsistent (h : rowAdvance s = .next t) (hseq : s.seq = .playing) (hplay : s.song.Playable)
    (hpos : s.PositionInSong) (htick : s.tickcnt = 0) (hrowb : s.rowBoundary = true) : t.SongConsistent := by
  unfold rowAdvance at h
  dsimp only at h
  split at h
  · next hrow => exact orderWrap_songConsistent h hseq hplay hpos hrow htick hrowb rfl
  · cases h; exact songConsistent_of_playing hseq hplay hpos

/-- The tick advance keeps R39. -/
theorem tickAdvance_songConsistent (h : tickAdvance s = .next t) (hseq : s.seq = .playing) (hplay : s.song.Playable)
    (hpos : s.PositionInSong) : t.SongConsistent := by
  obtain ⟨horder, -, hcurpat⟩ := hpos
  have htick : (BitVec.ofNat 5 ((s.tickcnt.toNat + 1) % s.song.speed.toNat)).toNat < s.song.speed.toNat := by
    rw [BitVec.toNat_ofNat]
    exact (Nat.mod_le _ _).trans_lt (Nat.mod_lt _ hplay.1)
  unfold tickAdvance at h
  dsimp only at h
  split_ifs at h with _ hzero
  · exact rowAdvance_songConsistent h hseq hplay ⟨horder, htick, hcurpat⟩ hzero rfl
  · cases h; exact songConsistent_of_playing hseq hplay ⟨horder, htick, hcurpat⟩

/-- A PLAYING TICK writes only the position, CURPAT, STATE, the boundary flags, the response and its working fields
(R43). -/
theorem TickEnded.frame (h : TickEnded s t) :
    t = { s with
      order := t.order, row := t.row, tickcnt := t.tickcnt, curpat := t.curpat, seq := t.seq,
      rowBoundary := t.rowBoundary, orderBoundary := t.orderBoundary, response := t.response,
      engine := .idle, vars := LoadVars.initial, chan := 0, cmds := [] } := by
  obtain ⟨u, v, hu, hv, rfl⟩ := h
  have hmove := tickAdvance_movesPosition hv
  unfold MovesPosition at hmove
  rw [hmove, hu]
  rfl

theorem TickEnded.songConsistent (hseq : s.seq = .playing) (hs : s.SongConsistent) (h : TickEnded s t) :
    t.SongConsistent := by
  obtain ⟨hplay, hpos⟩ := songConsistent_playing hs hseq
  obtain ⟨u, v, hu, hv, rfl⟩ := h
  unfold InsideTick at hu
  rw [hu] at hv
  change v.SongConsistent
  exact tickAdvance_songConsistent hv hseq hplay hpos

theorem TickEnded.inv (hseq : s.seq = .playing) (hs : s.Inv) (h : TickEnded s t) : t.Inv := by
  obtain ⟨-, hsong, hstores, hcode, heos, hloaded⟩ := hs
  have hnone := hloaded (by simp [hseq])
  have ht := h.frame
  refine ⟨?_, h.songConsistent hseq hsong, ?_, ?_⟩
  · rw [ht]; exact ⟨rfl, rfl, rfl, rfl⟩
  · rw [ht]; exact hstores
  · rw [ht]; exact ⟨hcode, heos, fun _ => hnone⟩

theorem RequestOutcome.inv (h : RequestOutcome s t) (hs : s.Inv) : t.Inv := by
  have ⟨_, _, hstores, _⟩ := hs
  cases h with
  | reset h => subst h; exact afterReset_inv hstores
  | loadFailed h => exact h.inv hstores
  | loadCommitted h => exact h.inv hstores
  | tick hplaying h => exact h.inv hplaying hs
  | answer h => exact h.inv hs

theorem RequestOutcome.undefinedPartsEmpty (h : RequestOutcome s t) (hs : s.song.UndefinedPartsEmpty) :
    t.song.UndefinedPartsEmpty := by
  cases h with
  | reset h => rw [h]; exact Song.empty_undefinedPartsEmpty
  | loadFailed h => obtain ⟨_, u, _, _, rfl⟩ := h; exact Song.empty_undefinedPartsEmpty
  | loadCommitted h => obtain ⟨u, _, _, hsong, _, rfl⟩ := h; exact hsong.undefinedPartsEmpty (by decide)
  | tick _ h => rw [h.frame]; exact hs
  | answer h => rw [h]; exact hs

end Invariant

/-! ## The STATUS word (spec/10_state.md R22) -/

section StatusWord

theorem SeqState.code_toNat (q : SeqState) : q.code.toNat = seqNumber q := by cases q <;> rfl

theorem ErrCode.code_toNat (e : ErrCode) : e.code.toNat = errNumber e := by cases e <;> rfl

theorem seqNumber_lt (q : SeqState) : seqNumber q < 4 := by cases q <;> decide

theorem errNumber_lt (e : ErrCode) : errNumber e < 8 := by cases e <;> decide

theorem bit_le_one (b : Bool) : bit b ≤ 1 := by cases b <;> decide

theorem append_toNat {m n : Nat} (x : BitVec m) (y : BitVec n) : (x ++ y).toNat = 2 ^ n * x.toNat + y.toNat := by
  rw [BitVec.toNat_append, ← Nat.shiftLeft_add_eq_or_of_lt y.isLt, Nat.shiftLeft_eq, Nat.mul_comm]

theorem ofBool_toNat (b : Bool) : (BitVec.ofBool b).toNat = bit b := by cases b <;> rfl

theorem status_toNat (s : State) : s.status.toNat = statusNumber s := by
  simp only [State.status, append_toNat, ofBool_toNat, SeqState.code_toNat, ErrCode.code_toNat, statusNumber,
    BitVec.toNat_ofNat]
  omega

theorem statusNumber_lt (s : State) : statusNumber s < 512 := by
  have hseq := seqNumber_lt s.seq
  have herr := errNumber_lt s.err
  have hrow := bit_le_one s.rowBoundary
  have horder := bit_le_one s.orderBoundary
  have hslow := bit_le_one s.song.slowTimer
  have heos := bit_le_one s.eos
  unfold statusNumber
  omega

end StatusWord

/-! ## The obligations of the state (spec/10_state.md) -/

/-- Settles O52: a step between requests places an image or answers a request, and every outcome of a request keeps
the invariant. -/
theorem stepKeepsInvariant : Obligations.StepKeepsInvariant := by
  intro s t hs h
  obtain rfl | ⟨bytes, rest, himage⟩ | ⟨rest, hreq⟩ := step_idle_cases hs.1.1 h
  · exact hs
  · exact placeImage_inv (hs.withHost rest) himage
  · exact hreq.inv (hs.withHost rest)

/-- Settles O53: only RESET and LOAD write the song; RESET and a failed LOAD empty it, and a committed LOAD has kept the
undefined parts empty at every token. -/
theorem stepKeepsUndefinedPartsEmpty : Obligations.StepKeepsUndefinedPartsEmpty := by
  intro s t hs hempty h
  obtain rfl | ⟨bytes, rest, himage⟩ | ⟨rest, hreq⟩ := step_idle_cases hs.1.1 h
  · exact hempty
  · obtain ⟨_, rfl⟩ := placeImage_eq_next himage
    exact hempty
  · exact hreq.undefinedPartsEmpty hempty

/-- Settles O4: each appended field weighs what its place says, and no field exceeds its width. -/
theorem statusWordLayout : Obligations.StatusWordLayout :=
  fun s => ⟨status_toNat s, status_toNat s ▸ statusNumber_lt s⟩

/-- Settles O9: each clause is the frame of the request's outcome. -/
theorem requestsWriteOnlyTheirState : Obligations.RequestsWriteOnlyTheirState := by
  intro s t
  refine ⟨?reset, ?load, ?tickOutside, ?tickPlaying, ?wrctrl, ?high, ?illegal⟩
  case reset => intro h; cases h; rfl
  case load =>
    intro h
    obtain ⟨_, u, hu, _, rfl⟩ | ⟨u, hu, _, _, _, rfl⟩ := execLoad_cases h
    · exact hu.keeps
    · exact hu.keeps
  case tickOutside => exact fun h hseq => execTick_notPlaying hseq h
  case tickPlaying => exact fun h hseq => (execTick_playing hseq h).frame
  case wrctrl => intro l h; cases h; rfl
  case high => exact fun w hop h => exec_decodeReq_of_high hop h
  case illegal => intro p o h; cases h; rfl

/-- Settles O32: a LOAD that leaves PLAYING has committed a validated song, read inside the image. -/
theorem loadedSongIsPlayable : Obligations.LoadedSongIsPlayable := by
  intro s t h hseq
  obtain ⟨_, u, _, _, rfl⟩ | ⟨u, hu, heos, _, hplay, rfl⟩ := execLoad_cases h
  · cases hseq
  · exact ⟨hplay, heos, hu.2⟩

/-- Settles O35: a failed LOAD holds TRUNCATED_INPUT exactly where a read ran past the end; a committed one has read
inside the image. -/
theorem eosAfterLoadIffTruncated : Obligations.EosAfterLoadIffTruncated := by
  intro s t h
  obtain ⟨_, u, _, ⟨heos, rfl⟩ | ⟨heos, rfl⟩, rfl⟩ | ⟨u, _, heos, _, _, rfl⟩ := execLoad_cases h
  · simp [heos]
  · simp [heos]
  · exact ⟨fun h => absurd (heos.symm.trans h) nofun, nofun⟩

/-- Settles O1: the stores are replicated zeros, and RESET builds the reset state anew. -/
theorem resetStateHoldsTableValues : Obligations.ResetStateHoldsTableValues := by
  refine ⟨fun r => by cases r <;> rfl, rfl, rfl, rfl, rfl, rfl, rfl, rfl, rfl, ?orders, ?offsets, ?records, ?loaded,
    fun _ _ _ => rfl, ?request⟩
  case orders => simp [State.reset, Song.empty]
  case offsets => simp [State.reset, Song.empty]
  case records => simp [State.reset, Song.empty]
  case loaded => simp [State.reset, Song.empty]
  case request => intro s t h; cases h; rfl

/-- Settles O2: every field of the reset state is written out, and the empty song is a song with nothing decoded. -/
theorem resetStateMeetsInvariant : Obligations.ResetStateMeetsInvariant :=
  ⟨State.reset_inv, Song.empty_undefinedPartsEmpty⟩

end Sys2Proof.Machine

/-! ## The reader primitives (spec/20_memory.md R62, R63) -/

namespace Sys2Proof.Machine

section ReadWord

variable {s : State}

theorem readWord_inside (h : s.pos + 1 < s.romLen) :
    readWord s = (Memory.read s.rom (s.pos + 1) ++ Memory.read s.rom s.pos, { s with pos := s.pos + 2 }) := by
  rw [readWord, readByte_inside (by omega : s.pos < s.romLen), readByte_inside h]
  rfl

/-- A word whose high byte lies past the end reads 0 for that byte. -/
theorem readWord_straddling (h : s.pos + 1 = s.romLen) :
    readWord s = (0#8 ++ Memory.read s.rom s.pos, { s with pos := s.pos + 1, eos := true }) := by
  rw [readWord, readByte_inside (by omega : s.pos < s.romLen), readByte_past h.ge]
  rfl

theorem readWord_past (h : s.romLen ≤ s.pos) : readWord s = (0, { s with eos := true }) := by
  simp [readWord, readByte_past, h]

end ReadWord

/-! ## The cells of the pattern ROM (spec/20_memory.md R70) -/

section CellStore

variable {p : Song} {s r c s' r' c' : Nat}

/-- CellAddr is a mixed-radix number: it names each slot, row and channel once, and their aliases alike. -/
theorem cellAddr_eq_iff :
    cellAddr s r c = cellAddr s' r' c' ↔ s % 32 = s' % 32 ∧ r % 64 = r' % 64 ∧ c % 9 = c' % 9 := by
  unfold cellAddr
  omega

theorem readCell_writeCell_same (v : CellWord) (hp : Store.wf 0 p.prom = true)
    (h : cellAddr s r c = cellAddr s' r' c') : readCell (writeCell p s r c v) s' r' c' = v := by
  rw [readCell, ← h]
  exact Store.read_write_same 0 _ v hp

theorem readCell_writeCell_other (v : CellWord) (h : cellAddr s r c ≠ cellAddr s' r' c') :
    readCell (writeCell p s r c v) s' r' c' = readCell p s' r' c' :=
  Store.read_write_other 0 v h.symm

end CellStore

/-! ## What does not depend on the module ROM (spec/20_memory.md R77) -/

/-- The state with another module ROM in place of its own. -/
abbrev State.withRom (s : State) (rom : List Host.Cell) (n : Nat) : State := { s with rom := rom, romLen := n }

/-- With another module ROM in place the operation answers the same, stops included, and the ROM is the other one. -/
def IgnoresRom (f : State → Result) : Prop :=
  ∀ s rom n, f (s.withRom rom n) = mapNext (fun t => t.withRom rom n) (f s)

section RomIgnored

variable {f g : State → Result}

theorem IgnoresRom.andThen (hf : IgnoresRom f) (hg : IgnoresRom g) : IgnoresRom fun s => andThen (f s) g := by
  intro s rom n
  dsimp only
  rw [hf s rom n]
  cases f s with
  | next t => exact hg t rom n
  | fault r => rfl
  | refused r => rfl

theorem emitSetInstrument_ignoresRom (ch : BitVec 4) (inst : BitVec 5) : IgnoresRom (emitSetInstrument ch inst) := by
  intro s rom n
  unfold emitSetInstrument
  split_ifs <;> rfl

theorem emitSetFrequency_ignoresRom (ch : BitVec 4) (oct : BitVec 3) (note : BitVec 4) :
    IgnoresRom (emitSetFrequency ch oct note) := by
  intro s rom n
  unfold emitSetFrequency
  split <;> rfl

theorem emitKeyOn_ignoresRom (ch : BitVec 4) : IgnoresRom (emitKeyOn ch) := by
  intro s rom n
  unfold emitKeyOn
  split <;> rfl

theorem emitKeyOff_ignoresRom (ch : BitVec 4) : IgnoresRom (emitKeyOff ch) := by
  intro s rom n
  unfold emitKeyOff
  split <;> rfl

/-- An operation on the channel a TICK has reached ignores the ROM when it does so on every channel. -/
theorem IgnoresRom.onCellChannel {e : BitVec 4 → State → Result} (he : ∀ ch, IgnoresRom (e ch)) :
    IgnoresRom fun s => e (cellChannel s) s :=
  fun s => he (cellChannel s) s

theorem exec_decodeCell_ignoresRom (w : CellWord) : IgnoresRom (exec (decodeCell w)) := by
  have hfreq oct note := IgnoresRom.onCellChannel fun ch => emitSetFrequency_ignoresRom ch oct note
  have hinst inst := IgnoresRom.onCellChannel fun ch => emitSetInstrument_ignoresRom ch inst
  have hon := IgnoresRom.onCellChannel emitKeyOn_ignoresRom
  unfold decodeCell
  dsimp only
  split_ifs
  · exact fun _ _ _ => rfl
  · exact .onCellChannel emitKeyOff_ignoresRom
  · exact (hfreq _ _).andThen hon
  · exact (hinst _).andThen ((hfreq _ _).andThen hon)

theorem orderAdvance_withRom (s : State) (rom : List Host.Cell) (n : Nat) :
    orderAdvance (s.withRom rom n) = (orderAdvance s).withRom rom n := by
  unfold orderAdvance
  split_ifs <;> rfl

theorem resolvePattern_ignoresRom : IgnoresRom resolvePattern := by
  intro s rom n
  unfold resolvePattern
  split <;> rfl

theorem rowAdvance_ignoresRom : IgnoresRom rowAdvance := by
  intro s rom n
  unfold rowAdvance
  dsimp only
  split
  · rw [← resolvePattern_ignoresRom, ← orderAdvance_withRom]
  · rfl

theorem tickAdvance_ignoresRom : IgnoresRom tickAdvance := by
  intro s rom n
  unfold tickAdvance
  dsimp only
  split_ifs
  · rfl
  · exact rowAdvance_ignoresRom { s with tickcnt := _, rowBoundary := true } rom n
  · rfl

theorem finishTick_ignoresRom : IgnoresRom finishTick :=
  tickAdvance_ignoresRom.andThen fun _ _ _ => rfl

theorem innerStep_cells_eq {s : State} {c : Fin 9} (hs : s.engine = .cells c) :
    innerStep s = exec (decodeCell (readCell s.song s.curpat.toNat s.row.toNat c.val))
      { s with chan := c, engine := afterCell c } := by
  simp only [innerStep, fetch, hs, cellFetch]
  exact runInner_eq_exec (by simp [decodeCell_fmt]) _

/-- A step of a running TICK ignores the ROM: it takes a cell of the pattern ROM or advances the position. -/
theorem innerStep_withRom {s : State} {k : Nat} (hs : s.engine.tickStepsLeft = some (k + 1)) (rom : List Host.Cell)
    (n : Nat) : innerStep (s.withRom rom n) = mapNext (fun t => t.withRom rom n) (innerStep s) := by
  cases he : s.engine with
  | cells c =>
    rw [innerStep_cells_eq he, innerStep_cells_eq (s := s.withRom rom n) he]
    exact exec_decodeCell_ignoresRom _ { s with chan := c, engine := afterCell c } rom n
  | tickEnd =>
    rw [innerStep_tickEnd he, innerStep_tickEnd (s := s.withRom rom n) he]
    exact finishTick_ignoresRom s rom n
  | idle => simp [he, Engine.tickStepsLeft] at hs
  | load p => simp [he, Engine.tickStepsLeft] at hs
  | emit w => simp [he, Engine.tickStepsLeft] at hs

/-- A TICK run from one of its positions to its end ignores the ROM. -/
theorem runRequest_withRom {s : State} {k fuel : Nat} (hs : s.engine.tickStepsLeft = some k) (rom : List Host.Cell)
    (n : Nat) : runRequest fuel (s.withRom rom n) = mapNext (fun t => t.withRom rom n) (runRequest fuel s) := by
  induction fuel generalizing s k with
  | zero => rfl
  | succ fuel ih =>
    cases k with
    | zero =>
      have hidle : s.engine = .idle := tickStepsLeft_eq_zero.1 hs
      rw [runRequest_idle hidle, runRequest_idle (s := s.withRom rom n) hidle]
      rfl
    | succ k =>
      have hrun : s.engine ≠ .idle := fun he => by simp [he, Engine.tickStepsLeft] at hs
      rw [runRequest_step hrun, runRequest_step (s := s.withRom rom n) hrun, innerStep_withRom hs]
      cases hi : innerStep s with
      | next t => exact ih (innerStep_tickStepsLeft hs hi)
      | fault r => rfl
      | refused r => rfl

theorem execTick_ignoresRom : IgnoresRom execTick := by
  intro s rom n
  unfold execTick
  cases hseq : s.seq with
  | idle => rfl
  | playing => exact runRequest_withRom (startTick_tickStepsLeft s) rom n
  | ended => rfl

end RomIgnored

/-! ## The obligations of the memory (spec/20_memory.md) -/

/-- Settles O10: of the requests other than LOAD only TICK runs a loop, and each of its steps ignores the ROM. -/
theorem playbackNeverReadsRom : Obligations.PlaybackNeverReadsRom := by
  intro i s rom n hreq hload
  cases i with
  | load => exact absurd rfl hload
  | tick => exact execTick_ignoresRom s rom n
  | reset | wrctrl | rdreg | rdregReservedReg | reservedOp5 | reservedOp6 | reservedOp7 | reservedOp8F
  | illegalOperand => rfl
  | _ => cases hreq

/-- Settles O60: a cell is stored at its CellAddr, which two index triples share exactly when they are aliases. -/
theorem cellWriteReadsBackModuloBounds : Obligations.CellWriteReadsBackModuloBounds := by
  intro p s r c s' r' c' v hp
  refine ⟨wf_writeCell s r c v hp, ?_⟩
  split_ifs with hsame
  · exact readCell_writeCell_same v hp (cellAddr_eq_iff.2 hsame)
  · exact readCell_writeCell_other v (mt cellAddr_eq_iff.1 hsame)

/-- Settles O11: a word is two byte reads, each of them inside the image or past its end. -/
theorem readerPrimitives : Obligations.ReaderPrimitives := by
  intro s
  refine ⟨readByte_inside, readByte_past, ?inside, ?straddling, readWord_past, fun _ => rfl⟩
  case inside =>
    intro h
    rw [readWord_inside h, byte_append_toNat]
    exact ⟨Nat.add_comm _ _, rfl⟩
  case straddling =>
    intro h
    rw [readWord_straddling h, byte_append_toNat]
    exact ⟨by simp, rfl⟩

end Sys2Proof.Machine

/-! ## Words and their fields (spec/30_encoding.md sections 1 to 5) -/

namespace Sys2Proof

open Machine (bit append_toNat ofBool_toNat)

section Fields

variable {n : Nat} (w : BitVec n)

theorem extractLsb_toNat_div (hi lo : Nat) :
    (w.extractLsb hi lo).toNat = w.toNat / 2 ^ lo % 2 ^ (hi - lo + 1) := by
  rw [BitVec.extractLsb_toNat, Nat.shiftRight_eq_div_pow]

theorem extractLsb_eq_ofNat_iff (hi lo k : Nat) :
    w.extractLsb hi lo = BitVec.ofNat _ k ↔ w.toNat / 2 ^ lo % 2 ^ (hi - lo + 1) = k % 2 ^ (hi - lo + 1) := by
  rw [← BitVec.toNat_inj, extractLsb_toNat_div, BitVec.toNat_ofNat]

theorem getLsbD_eq_true_iff (k : Nat) : w.getLsbD k = true ↔ w.toNat / 2 ^ k % 2 = 1 := by
  rw [BitVec.getLsbD, Nat.testBit_eq_decide_div_mod_eq, decide_eq_true_iff]

theorem bit_getLsbD (k : Nat) : bit (w.getLsbD k) = w.toNat / 2 ^ k % 2 := by
  rw [bit]
  split_ifs with h <;> rw [getLsbD_eq_true_iff] at h <;> omega

theorem getLsbD_congr {k : Nat} {v w : BitVec n} (h : v.toNat / 2 ^ k % 2 = w.toNat / 2 ^ k % 2) :
    v.getLsbD k = w.getLsbD k := by
  rw [Bool.eq_iff_iff, getLsbD_eq_true_iff, getLsbD_eq_true_iff, h]

theorem extractLsb_congr {hi lo : Nat} {v w : BitVec n}
    (h : v.toNat / 2 ^ lo % 2 ^ (hi - lo + 1) = w.toNat / 2 ^ lo % 2 ^ (hi - lo + 1)) :
    v.extractLsb hi lo = w.extractLsb hi lo := by
  rw [← BitVec.toNat_inj, extractLsb_toNat_div, extractLsb_toNat_div, h]

end Fields

theorem decode_fits {f : Format} {n : Nat} {i : Instr} (h : decode ⟨f, n⟩ = .instr i) : n < 2 ^ f.width := by
  by_contra hn
  rw [decode, if_neg hn] at h
  cases h

/-- Outside CMD every number of the format's width decodes (R111). -/
theorem decode_total {f : Format} (hf : f ≠ .cmd) (w : BitVec f.width) :
    ∃ i, decode ⟨f, w.toNat⟩ = .instr i := by
  cases f with
  | req => exact ⟨_, decode_req w⟩
  | hdr => exact ⟨_, decode_hdr w⟩
  | desc => exact ⟨_, decode_desc w⟩
  | islot => exact ⟨_, decode_islot w⟩
  | irec => exact ⟨_, decode_irec w⟩
  | olen => exact ⟨_, decode_olen w⟩
  | oent => exact ⟨_, decode_oent w⟩
  | pofs => exact ⟨_, decode_pofs w⟩
  | line => exact ⟨_, decode_line w⟩
  | chan => exact ⟨_, decode_chan w⟩
  | note => exact ⟨_, decode_note w⟩
  | param => exact ⟨_, decode_param w⟩
  | cell => exact ⟨_, decode_cell w⟩
  | cmd => exact absurd rfl hf

theorem isChannel_eq_false {ch : BitVec 4} : isChannel ch = false ↔ 9 ≤ ch.toNat := by simp [isChannel]

theorem isPitch_eq_false {note : BitVec 4} : isPitch note = false ↔ note.toNat = 0 ∨ note.toNat = 15 := by
  simp [isPitch, ← BitVec.toNat_inj, or_iff_not_imp_left]

/-! ### The operands an encoding can hold, constructor by constructor -/

section WellFormed

variable {note eff : BitVec 4} {oct : BitVec 3} {inst : BitVec 5} {param : Byte}

theorem wellFormed_rdregReservedReg {r : BitVec 4} : (Instr.rdregReservedReg r).wellFormed = true ↔ 8 ≤ r.toNat :=
  decide_eq_true_iff

theorem wellFormed_reservedOp8F {op : BitVec 4} {operand : BitVec 12} :
    (Instr.reservedOp8F op operand).wellFormed = true ↔ 8 ≤ op.toNat := decide_eq_true_iff

theorem wellFormed_descByte {b : Byte} : (Instr.descByte b).wellFormed = true ↔ b ≠ 0 := bne_iff_ne

theorem wellFormed_islot {n : BitVec 5} : (Instr.islot n).wellFormed = true ↔ n ≠ 0 := bne_iff_ne

theorem wellFormed_islotBad {n : Byte} : (Instr.islotBad n).wellFormed = true ↔ 32 ≤ n.toNat := decide_eq_true_iff

theorem wellFormed_pofs {ofs : Half} : (Instr.pofs ofs).wellFormed = true ↔ ofs ≠ 0 := bne_iff_ne

theorem wellFormed_noteParam {ihi : Bool} {ilo : BitVec 4} :
    (Instr.noteParam ihi oct note ilo eff).wellFormed = true ↔ eff ≠ 0 := bne_iff_ne

theorem wellFormed_cellNote :
    (Instr.cellNote oct note eff param).wellFormed = true ↔ note ≠ 0 ∧ note ≠ 15 := by
  simp [Instr.wellFormed, isPitch]

theorem wellFormed_cellNoteInst :
    (Instr.cellNoteInst inst oct note eff param).wellFormed = true ↔ inst ≠ 0 ∧ note ≠ 0 ∧ note ≠ 15 := by
  simp [Instr.wellFormed, isPitch]

theorem wellFormed_setInstrument {ch : BitVec 4} {loaded : Bool} {data : BitVec 88} :
    (Instr.setInstrument ch loaded inst data).wellFormed = true ↔ isChannel ch = true ∧ inst ≠ 0 := by
  simp [Instr.wellFormed]

theorem wellFormed_setFrequency {ch : BitVec 4} :
    (Instr.setFrequency ch oct note).wellFormed = true ↔ isChannel ch = true ∧ isPitch note = true :=
  Bool.and_eq_true_iff

end WellFormed

/-! ### Every word is put together from fields -/

section WordsOfFields

theorem exists_hdrByte (b : Byte) : ∃ desc slow ignored speed, b = hdrByte desc slow ignored speed := by
  refine ⟨b.getLsbD 7, b.getLsbD 6, b.getLsbD 5, b.extractLsb 4 0, BitVec.eq_of_toNat_eq ?_⟩
  simp only [hdrByte, append_toNat, ofBool_toNat, bit_getLsbD, extractLsb_toNat_div]
  omega

theorem exists_lineByte (b : Byte) : ∃ last ignored row, b = lineByte last ignored row := by
  refine ⟨b.getLsbD 7, b.getLsbD 6, b.extractLsb 5 0, BitVec.eq_of_toNat_eq ?_⟩
  simp only [lineByte, append_toNat, ofBool_toNat, bit_getLsbD, extractLsb_toNat_div]
  omega

theorem exists_chanByte (b : Byte) : ∃ last ignored chidx, b = chanByte last ignored chidx := by
  refine ⟨b.getLsbD 7, b.extractLsb 6 4, b.extractLsb 3 0, BitVec.eq_of_toNat_eq ?_⟩
  simp only [chanByte, append_toNat, ofBool_toNat, bit_getLsbD, extractLsb_toNat_div]
  omega

theorem exists_noteWord (n : Half) : ∃ ihi oct note ilo eff, n = noteWord ihi oct note ilo eff := by
  refine ⟨n.getLsbD 15, n.extractLsb 14 12, n.extractLsb 11 8, n.extractLsb 7 4, n.extractLsb 3 0,
    BitVec.eq_of_toNat_eq ?_⟩
  simp only [noteWord, append_toNat, ofBool_toNat, bit_getLsbD, extractLsb_toNat_div]
  omega

theorem exists_cellWord (w : CellWord) : ∃ inst oct note eff param, w = cellWord inst oct note eff param := by
  refine ⟨w.extractLsb 23 19, w.extractLsb 18 16, w.extractLsb 15 12, w.extractLsb 11 8, w.extractLsb 7 0,
    BitVec.eq_of_toNat_eq ?_⟩
  simp only [cellWord, append_toNat, extractLsb_toNat_div]
  omega

theorem exists_reqWord (w : ReqWord) : ∃ op operand, w = reqWord op operand := by
  refine ⟨w.extractLsb 15 12, w.extractLsb 11 0, BitVec.eq_of_toNat_eq ?_⟩
  simp only [reqWord, append_toNat, extractLsb_toNat_div]
  omega

end WordsOfFields

/-! ### The command words as numbers (R106 to R108) -/

section CommandNumbers

theorem setInstrumentWord_toNat (ch : BitVec 4) (loaded : Bool) (inst : BitVec 5) (data : BitVec 88) :
    (setInstrumentWord ch loaded inst data).toNat =
      inst.toNat + 32 * bit loaded + 1024 * ch.toNat + 65536 * data.toNat := by
  simp only [setInstrumentWord, append_toNat, ofBool_toNat, BitVec.toNat_ofNat]
  omega

theorem setFrequencyWord_toNat (ch : BitVec 4) (oct : BitVec 3) (note : BitVec 4) :
    (setFrequencyWord ch oct note).toNat = 0x4000 + 1024 * ch.toNat + 16 * oct.toNat + note.toNat := by
  simp only [setFrequencyWord, append_toNat, BitVec.toNat_ofNat]
  omega

theorem keyOnWord_toNat (ch : BitVec 4) : (keyOnWord ch).toNat = 0x8000 + 1024 * ch.toNat := by
  simp only [keyOnWord, append_toNat, BitVec.toNat_ofNat]
  omega

theorem keyOffWord_toNat (ch : BitVec 4) : (keyOffWord ch).toNat = 0xC000 + 1024 * ch.toNat := by
  simp only [keyOffWord, append_toNat, BitVec.toNat_ofNat]
  omega

end CommandNumbers

/-! ### A word of fields decodes to the instruction with those fields -/

section DecodedFields

open BitVec

theorem decodeHdr_hdrByte (desc slow ignored : Bool) (speed : BitVec 5) :
    decodeHdr (hdrByte desc slow ignored speed) = .hdr desc slow ignored speed := by
  simp (disch := decide) only [decodeHdr, hdrByte, extractLsb, extractLsb'_append_eq_of_add_le, getLsbD_append]
  simp

theorem decodeLine_lineByte (last ignored : Bool) (row : BitVec 6) :
    decodeLine (lineByte last ignored row) = if last then .lineLast ignored row else .line ignored row := by
  simp (disch := decide) only [decodeLine, lineByte, extractLsb, extractLsb'_append_eq_of_add_le, getLsbD_append]
  simp

theorem decodeChan_chanByte (last : Bool) (ignored : BitVec 3) (chidx : BitVec 4) :
    decodeChan (chanByte last ignored chidx) = if last then .chanLast ignored chidx else .chan ignored chidx := by
  simp (disch := decide) only [decodeChan, chanByte, extractLsb, extractLsb'_append_eq_of_add_le,
    extractLsb'_append_eq_of_le, getLsbD_append]
  simp

theorem decodeNote_noteWord (ihi : Bool) (oct : BitVec 3) (note ilo eff : BitVec 4) :
    decodeNote (noteWord ihi oct note ilo eff) =
      if eff = 0 then .noteNoparam ihi oct note ilo else .noteParam ihi oct note ilo eff := by
  simp (disch := decide) only [decodeNote, noteWord, extractLsb, extractLsb'_append_eq_of_add_le,
    extractLsb'_append_eq_of_le, getLsbD_append]
  simp

theorem decodeCell_cellWord (inst : BitVec 5) (oct : BitVec 3) (note eff : BitVec 4) (param : Byte) :
    decodeCell (cellWord inst oct note eff param) =
      if note = 0 then .cellEmpty inst oct eff param
      else if note = 15 then .cellKeyoff inst oct eff param
      else if inst = 0 then .cellNote oct note eff param
      else .cellNoteInst inst oct note eff param := by
  simp (disch := decide) only [decodeCell, cellWord, extractLsb, extractLsb'_append_eq_of_add_le,
    extractLsb'_append_eq_of_le]
  simp

/-- The requests of R109 and R113, by OP. -/
theorem decodeReq_reqWord (op : BitVec 4) (operand : BitVec 12) :
    decodeReq (reqWord op operand) =
      if reservedBitsSet op operand then .illegalOperand op operand
      else if op = 0 then .reset
      else if op = 1 then .load
      else if op = 2 then .tick
      else if op = 3 then .wrctrl (operand.getLsbD 0)
      else if op = 4 then
        if operand.getLsbD 3 then .rdregReservedReg (operand.extractLsb 3 0)
        else .rdreg (RegName.ofNumber (operand.extractLsb 2 0))
      else if op = 5 then .reservedOp5 operand
      else if op = 6 then .reservedOp6 operand
      else if op = 7 then .reservedOp7 operand
      else .reservedOp8F op operand := by
  simp (disch := decide) only [decodeReq, reqWord, extractLsb, extractLsb'_append_eq_of_add_le,
    extractLsb'_append_eq_of_le, getLsbD_append]
  simp

theorem decodeIslot_append {n : BitVec 5} (hn : n ≠ 0) : decodeIslot (0#3 ++ n) = .islot n := by
  have hval : (0#3 ++ n : Byte).toNat = n.toNat := by rw [append_toNat]; simp
  have hnz : (0#3 ++ n : Byte) ≠ 0 := by
    rw [ne_eq, ← toNat_inj] at hn ⊢
    rwa [hval]
  rw [decodeIslot, if_neg hnz, if_pos (hval ▸ n.isLt)]
  simp (disch := decide) only [extractLsb, extractLsb'_append_eq_of_add_le]
  simp

theorem decodeReq_reservedRegister :
    ∀ r : BitVec 4, 8 ≤ r.toNat → decodeReq (reqWord 4 (0#8 ++ r)) = .rdregReservedReg r := by decide

theorem RegName.number_ofNumber : ∀ r : BitVec 3, (RegName.ofNumber r).number = r := by decide

end DecodedFields

/-! ### The reserved operand bits of a request (R113, R215) -/

section ReservedBits

theorem reservedBitsSet_of_five_le {op : BitVec 4} (hop : 5 ≤ op.toNat) (operand : BitVec 12) :
    reservedBitsSet op operand = false := by
  have hne (k : BitVec 4) (hk : k.toNat < 5) : op ≠ k := by rintro rfl; omega
  rw [reservedBitsSet, if_neg (by omega), if_neg (hne 3 (by decide)), if_neg (hne 4 (by decide))]

theorem decodeReq_reservedOp8F {op : BitVec 4} (operand : BitVec 12) (hop : 8 ≤ op.toNat) :
    decodeReq (reqWord op operand) = .reservedOp8F op operand := by
  have hne (k : BitVec 4) (hk : k.toNat < 8) : op ≠ k := by rintro rfl; omega
  simp [decodeReq_reqWord, reservedBitsSet_of_five_le (by omega : 5 ≤ op.toNat), hne]

theorem operand_eq_zero {op : BitVec 4} {operand : BitVec 12} (hop : op.toNat < 3)
    (h : ¬ reservedBitsSet op operand = true) : operand = 0 := by
  simpa [reservedBitsSet, hop] using h

theorem wrctrl_operand {operand : BitVec 12} (h : ¬ reservedBitsSet 3 operand = true) :
    0#11 ++ BitVec.ofBool (operand.getLsbD 0) = operand := by
  have hbits : operand.extractLsb 11 1 = 0 := by simpa [reservedBitsSet] using h
  apply BitVec.eq_of_toNat_eq
  simp only [BitVec.ofNat_eq_ofNat, extractLsb_eq_ofNat_iff] at hbits
  simp only [append_toNat, ofBool_toNat, bit_getLsbD, BitVec.toNat_ofNat]
  omega

theorem rdreg_operand {operand : BitVec 12} (h : ¬ reservedBitsSet 4 operand = true) :
    0#8 ++ operand.extractLsb 3 0 = operand := by
  have hbits : operand.extractLsb 11 4 = 0 := by simpa [reservedBitsSet] using h
  apply BitVec.eq_of_toNat_eq
  simp only [BitVec.ofNat_eq_ofNat, extractLsb_eq_ofNat_iff] at hbits
  simp only [append_toNat, extractLsb_toNat_div, BitVec.toNat_ofNat]
  omega

theorem rdreg_operand_register {operand : BitVec 12} (h : ¬ reservedBitsSet 4 operand = true)
    (hlow : ¬ operand.getLsbD 3 = true) : 0#9 ++ operand.extractLsb 2 0 = operand := by
  have hbits : operand.extractLsb 11 4 = 0 := by simpa [reservedBitsSet] using h
  rw [getLsbD_eq_true_iff] at hlow
  apply BitVec.eq_of_toNat_eq
  simp only [BitVec.ofNat_eq_ofNat, extractLsb_eq_ofNat_iff] at hbits
  simp only [append_toNat, extractLsb_toNat_div, BitVec.toNat_ofNat]
  omega

end ReservedBits

/-! ### What decodes is the encoding of what it decodes to -/

section EncodeOfDecode

/-- The instruction is well-formed, and the number is its encoding under the format. -/
def Instr.EncodedAs (i : Instr) (f : Format) (n : Nat) : Prop := encode i = ⟨f, n⟩ ∧ i.wellFormed = true

theorem decodeReq_encodedAs (w : ReqWord) : (decodeReq w).EncodedAs .req w.toNat := by
  obtain ⟨op, operand, rfl⟩ := exists_reqWord w
  rw [decodeReq_reqWord]
  split_ifs with hset h0 h1 h2 h3 h4 hhigh h5 h6 h7
  · exact ⟨rfl, hset⟩
  · subst h0; exact ⟨by rw [operand_eq_zero (by decide) hset]; rfl, rfl⟩
  · subst h1; exact ⟨by rw [operand_eq_zero (by decide) hset]; rfl, rfl⟩
  · subst h2; exact ⟨by rw [operand_eq_zero (by decide) hset]; rfl, rfl⟩
  · subst h3; exact ⟨by rw [encode, wrctrl_operand hset], rfl⟩
  · subst h4
    refine ⟨by rw [encode, rdreg_operand hset], ?_⟩
    rw [getLsbD_eq_true_iff] at hhigh
    rw [wellFormed_rdregReservedReg, extractLsb_toNat_div]
    omega
  · subst h4
    exact ⟨by rw [encode, RegName.number_ofNumber, rdreg_operand_register hset hhigh], rfl⟩
  · subst h5; exact ⟨rfl, rfl⟩
  · subst h6; exact ⟨rfl, rfl⟩
  · subst h7; exact ⟨rfl, rfl⟩
  · have hop : 8 ≤ op.toNat := by bv_omega
    exact ⟨rfl, wellFormed_reservedOp8F.2 hop⟩

theorem decodeDesc_encodedAs (b : Byte) : (decodeDesc b).EncodedAs .desc b.toNat := by
  unfold decodeDesc
  split_ifs with h
  · subst h; exact ⟨rfl, rfl⟩
  · exact ⟨rfl, wellFormed_descByte.2 h⟩

theorem decodePofs_encodedAs (w : Half) : (decodePofs w).EncodedAs .pofs w.toNat := by
  unfold decodePofs
  split_ifs with h
  · subst h; exact ⟨rfl, rfl⟩
  · exact ⟨rfl, wellFormed_pofs.2 h⟩

theorem decodeHdr_encodedAs (b : Byte) : (decodeHdr b).EncodedAs .hdr b.toNat := by
  obtain ⟨desc, slow, ignored, speed, rfl⟩ := exists_hdrByte b
  rw [decodeHdr_hdrByte]
  exact ⟨rfl, rfl⟩

theorem decodeLine_encodedAs (b : Byte) : (decodeLine b).EncodedAs .line b.toNat := by
  obtain ⟨last, ignored, row, rfl⟩ := exists_lineByte b
  rw [decodeLine_lineByte]
  cases last <;> exact ⟨rfl, rfl⟩

theorem decodeChan_encodedAs (b : Byte) : (decodeChan b).EncodedAs .chan b.toNat := by
  obtain ⟨last, ignored, chidx, rfl⟩ := exists_chanByte b
  rw [decodeChan_chanByte]
  cases last <;> exact ⟨rfl, rfl⟩

theorem decodeNote_encodedAs (n : Half) : (decodeNote n).EncodedAs .note n.toNat := by
  obtain ⟨ihi, oct, note, ilo, eff, rfl⟩ := exists_noteWord n
  rw [decodeNote_noteWord]
  split_ifs with heff
  · subst heff; exact ⟨rfl, rfl⟩
  · exact ⟨rfl, wellFormed_noteParam.2 heff⟩

theorem decodeCell_encodedAs (w : CellWord) : (decodeCell w).EncodedAs .cell w.toNat := by
  obtain ⟨inst, oct, note, eff, param, rfl⟩ := exists_cellWord w
  rw [decodeCell_cellWord]
  split_ifs with hempty hkeyoff hinst
  · subst hempty; exact ⟨rfl, rfl⟩
  · subst hkeyoff; exact ⟨rfl, rfl⟩
  · subst hinst; exact ⟨rfl, wellFormed_cellNote.2 ⟨hempty, hkeyoff⟩⟩
  · exact ⟨rfl, wellFormed_cellNoteInst.2 ⟨hinst, hempty, hkeyoff⟩⟩

theorem decodeIslot_encodedAs (b : Byte) : (decodeIslot b).EncodedAs .islot b.toNat := by
  unfold decodeIslot
  split_ifs with hend hslot
  · subst hend; exact ⟨rfl, rfl⟩
  · have hfield : (b.extractLsb 4 0).toNat = b.toNat := by rw [extractLsb_toNat_div]; omega
    refine ⟨by simp only [encode, append_toNat, hfield]; simp, wellFormed_islot.2 ?_⟩
    simpa [← BitVec.toNat_inj, hfield] using hend
  · exact ⟨rfl, wellFormed_islotBad.2 (not_lt.1 hslot)⟩

section CommandFields

variable {w : CmdWord}

theorem setInstrumentWord_fields (hkind : w.extractLsb 15 14 = 0) (harg : w.extractLsb 9 6 = 0) :
    setInstrumentWord (w.extractLsb 13 10) (w.getLsbD 5) (w.extractLsb 4 0) (w.extractLsb 103 16) = w := by
  apply BitVec.eq_of_toNat_eq
  simp only [BitVec.ofNat_eq_ofNat, extractLsb_eq_ofNat_iff] at hkind harg
  simp only [setInstrumentWord_toNat, bit_getLsbD, extractLsb_toNat_div]
  omega

theorem setFrequencyWord_fields (hkind : w.extractLsb 15 14 = 1) (harg : w.extractLsb 9 7 = 0)
    (hdata : w.extractLsb 103 16 = 0) :
    setFrequencyWord (w.extractLsb 13 10) (w.extractLsb 6 4) (w.extractLsb 3 0) = w := by
  apply BitVec.eq_of_toNat_eq
  simp only [BitVec.ofNat_eq_ofNat, extractLsb_eq_ofNat_iff] at hkind harg hdata
  simp only [setFrequencyWord_toNat, extractLsb_toNat_div]
  omega

theorem keyOnWord_fields (hkind : w.extractLsb 15 14 = 2) (harg : w.extractLsb 9 0 = 0)
    (hdata : w.extractLsb 103 16 = 0) : keyOnWord (w.extractLsb 13 10) = w := by
  apply BitVec.eq_of_toNat_eq
  simp only [BitVec.ofNat_eq_ofNat, extractLsb_eq_ofNat_iff] at hkind harg hdata
  simp only [keyOnWord_toNat, extractLsb_toNat_div]
  omega

theorem keyOffWord_fields (hkind : w.extractLsb 15 14 = 3) (harg : w.extractLsb 9 0 = 0)
    (hdata : w.extractLsb 103 16 = 0) : keyOffWord (w.extractLsb 13 10) = w := by
  apply BitVec.eq_of_toNat_eq
  simp only [BitVec.ofNat_eq_ofNat, extractLsb_eq_ofNat_iff] at hkind harg hdata
  simp only [keyOffWord_toNat, extractLsb_toNat_div]
  omega

end CommandFields

theorem decodeCmd_encodedAs {w : CmdWord} {i : Instr} (h : decodeCmd w = .instr i) : i.EncodedAs .cmd w.toNat := by
  unfold decodeCmd at h
  dsimp only at h
  simp only [Bool.not_eq_true', bne_iff_ne, ne_eq] at h
  split_ifs at h with hch hkind0 harg hinst hdata hkind1 harg hnote harg hkind2 <;> cases h <;>
    rw [Bool.not_eq_false] at hch
  · exact ⟨by rw [encode, setInstrumentWord_fields hkind0 harg], wellFormed_setInstrument.2 ⟨hch, hinst⟩⟩
  · exact ⟨by rw [encode, setFrequencyWord_fields hkind1 harg hdata],
      wellFormed_setFrequency.2 ⟨hch, Bool.not_eq_false _ ▸ hnote⟩⟩
  · exact ⟨by rw [encode, keyOnWord_fields hkind2 harg hdata], hch⟩
  · have hkind3 : w.extractLsb 15 14 = 3 := by bv_omega
    exact ⟨by rw [encode, keyOffWord_fields hkind3 harg hdata], hch⟩

/-- The decoder's tests on a command word, in their order (R114). -/
theorem decodeCmd_rejected_iff (w : CmdWord) :
    (∃ r, decodeCmd w = .rejected r) ↔
      isChannel (w.extractLsb 13 10) = false ∨
        if w.extractLsb 15 14 = 0 then w.extractLsb 9 6 ≠ 0 ∨ w.extractLsb 4 0 = 0
        else w.extractLsb 103 16 ≠ 0 ∨
          if w.extractLsb 15 14 = 1 then w.extractLsb 9 7 ≠ 0 ∨ isPitch (w.extractLsb 3 0) = false
          else w.extractLsb 9 0 ≠ 0 := by
  unfold decodeCmd
  dsimp only
  split_ifs <;> simp_all

end EncodeOfDecode

end Sys2Proof

namespace Sys2Proof.Machine

/-! ## Bytes that differ in ignored bits alone (spec/30_encoding.md R111) -/

section IgnoredBits

variable {b b' : Byte} (s : State)

theorem exec_decodeHdr_congr (hspeed : b.toNat % 32 = b'.toNat % 32) (hflags : b.toNat / 64 = b'.toNat / 64) :
    exec (decodeHdr b) s = exec (decodeHdr b') s := by
  have htop : b.toNat / 128 = b'.toNat / 128 := by
    rw [← Nat.div_div_eq_div_mul _ 64 2, hflags, Nat.div_div_eq_div_mul]
  have hdesc : b.getLsbD 7 = b'.getLsbD 7 := getLsbD_congr (by omega)
  have hslow : b.getLsbD 6 = b'.getLsbD 6 := getLsbD_congr (by omega)
  have hfield : b.extractLsb 4 0 = b'.extractLsb 4 0 := extractLsb_congr (by omega)
  unfold decodeHdr
  rw [hdesc, hslow, hfield]
  rfl

theorem exec_decodeLine_congr (hrow : b.toNat % 64 = b'.toNat % 64) (hlast : b.toNat / 128 = b'.toNat / 128) :
    exec (decodeLine b) s = exec (decodeLine b') s := by
  have hbit : b.getLsbD 7 = b'.getLsbD 7 := getLsbD_congr (by omega)
  have hfield : b.extractLsb 5 0 = b'.extractLsb 5 0 := extractLsb_congr (by omega)
  unfold decodeLine
  rw [hbit, hfield]
  split <;> rfl

theorem exec_decodeChan_congr (hchidx : b.toNat % 16 = b'.toNat % 16) (hlast : b.toNat / 128 = b'.toNat / 128) :
    exec (decodeChan b) s = exec (decodeChan b') s := by
  have hbit : b.getLsbD 7 = b'.getLsbD 7 := getLsbD_congr (by omega)
  have hfield : b.extractLsb 3 0 = b'.extractLsb 3 0 := extractLsb_congr (by omega)
  unfold decodeChan
  rw [hbit, hfield]
  split <;> rfl

end IgnoredBits

/-! ## Commands the block never emits (spec/30_encoding.md R114) -/

section RefusedCommands

variable {ch : BitVec 4} (s : State)

theorem emitSetInstrument_refused {n : BitVec 5} (h : 9 ≤ ch.toNat ∨ n = 0) :
    emitSetInstrument ch n s = .refused .commandNeverEmitted := by
  unfold emitSetInstrument
  rcases h with hch | rfl
  · simp [isChannel_eq_false.2 hch]
  · rfl

theorem emitSetFrequency_refused (oct : BitVec 3) {note : BitVec 4} (h : 9 ≤ ch.toNat ∨ note = 0 ∨ note = 15) :
    emitSetFrequency ch oct note s = .refused .commandNeverEmitted := by
  unfold emitSetFrequency
  rcases h with hch | rfl | rfl
  · simp [isChannel_eq_false.2 hch]
  · simp [isPitch]
  · simp [isPitch]

theorem emitKeyOn_refused (h : 9 ≤ ch.toNat) : emitKeyOn ch s = .refused .commandNeverEmitted := by
  simp [emitKeyOn, isChannel_eq_false.2 h]

theorem emitKeyOff_refused (h : 9 ≤ ch.toNat) : emitKeyOff ch s = .refused .commandNeverEmitted := by
  simp [emitKeyOff, isChannel_eq_false.2 h]

end RefusedCommands

/-! ## Tokens that stand in the image, byte by byte (spec/40_load.md R149) -/

section ImageBytes

variable {s : State} {b : Byte} {bytes : List Byte}

theorem RomHolds.head {a : Nat} (h : RomHolds s a (b :: bytes)) : a < s.romLen ∧ Memory.read s.rom a = b := by
  obtain ⟨hlen, hread⟩ := h
  rw [List.length_cons] at hlen
  exact ⟨by omega, hread ⟨0, by simp⟩⟩

theorem RomHolds.tail {a : Nat} (h : RomHolds s a (b :: bytes)) : RomHolds s (a + 1) bytes := by
  obtain ⟨hlen, hread⟩ := h
  rw [List.length_cons] at hlen
  refine ⟨by omega, fun k => ?_⟩
  simpa [Nat.add_assoc, Nat.add_comm 1] using hread k.succ

theorem step_token {ph : Phase} {f : Format} {i : Instr} (hload : s.engine = .load ph) (hph : ph.format = some f)
    (heos : s.eos = false) (hpos : s.pos + tokenLength f ≤ s.romLen)
    (hdec : decode ⟨f, imageWord s f⟩ = .instr i) :
    step s = exec i (seek (s.pos + tokenLength f) s) := by
  obtain ⟨_, _, htoken, _⟩ := stepRunsDecodedInstruction
  exact htoken s ph f i hload hph heos hpos hdec

/-- At a byte token the step runs what the byte decodes to, past it. -/
theorem step_byteToken {ph : Phase} {f : Format} {d : Byte → Instr} (hload : s.engine = .load ph)
    (hph : ph.format = some f) (hlen : tokenLength f = 1) (hd : ∀ b : Byte, decode ⟨f, b.toNat⟩ = .instr (d b))
    (hword : imageWord s f = (Memory.read s.rom s.pos).toNat) (heos : s.eos = false)
    (hrom : RomHolds s s.pos (b :: bytes)) : step s = exec (d b) (seek (s.pos + 1) s) := by
  obtain ⟨hpos, hb⟩ := hrom.head
  rw [← hlen]
  exact step_token hload hph heos (hlen ▸ hpos) (by rw [hword, hb, hd])

theorem run_step {s t : State} (h : step s = .next t) (k : Nat) :
    Host.Core.run core (k + 1) s = Host.Core.run core k t := by rw [run_succ, h]; rfl

end ImageBytes

/-! ## One packed cell (spec/40_load.md R143 to R146) -/

section PackedCell

variable {s : State} {bytes : List Byte}

theorem nextSlot_keeps (s : State) : (nextSlot s).song = s.song ∧ (nextSlot s).pos = s.pos := by
  unfold nextSlot; split <;> exact ⟨rfl, rfl⟩

theorem endCell_keeps (s : State) : (endCell s).song = s.song ∧ (endCell s).pos = s.pos := by
  unfold endCell
  split_ifs
  · exact nextSlot_keeps s
  · exact ⟨rfl, rfl⟩
  · exact ⟨rfl, rfl⟩

theorem exec_decodeChan (b : Byte) (s : State) :
    exec (decodeChan b) s = .next (startCell (b.getLsbD 7) (b.extractLsb 3 0) s) := by
  rw [decodeChan]
  cases b.getLsbD 7 <;> rfl

theorem cellWord_toNat (inst : BitVec 5) (oct : BitVec 3) (note eff : BitVec 4) (param : Byte) :
    (cellWord inst oct note eff param).toNat =
      inst.toNat * 2 ^ 19 + oct.toNat * 2 ^ 16 + note.toNat * 2 ^ 12 + eff.toNat * 2 ^ 8 + param.toNat := by
  simp only [cellWord, append_toNat]
  omega

theorem instrumentNumber_toNat (ihi : Bool) (ilo : BitVec 4) :
    (instrumentNumber ihi ilo).toNat = 16 * bit ihi + ilo.toNat := by
  rw [instrumentNumber, append_toNat, ofBool_toNat]
  rfl

/-- The cell of a note pair (R101, R102), its effect and its parameter (R105). -/
def packedCell (n : Half) (eff : BitVec 4) (param : Byte) : CellWord :=
  cellWord (instrumentNumber (n.getLsbD 15) (n.extractLsb 7 4)) (n.extractLsb 14 12) (n.extractLsb 11 8) eff param

theorem packedCell_eq (n0 n1 : Byte) (eff : BitVec 4) (param : Byte) :
    packedCell (n0 ++ n1) eff param =
      BitVec.ofNat 24 ((16 * (n0.toNat / 128) + n1.toNat / 16) * 2 ^ 19 + n0.toNat / 16 % 8 * 2 ^ 16 +
        n0.toNat % 16 * 2 ^ 12 + eff.toNat * 2 ^ 8 + param.toNat) := by
  have hihi : (256 * n0.toNat + n1.toNat) / 2 ^ 15 % 2 = n0.toNat / 128 := by omega
  have hilo : (256 * n0.toNat + n1.toNat) / 2 ^ 4 % 2 ^ (7 - 4 + 1) = n1.toNat / 16 := by omega
  have hoct : (256 * n0.toNat + n1.toNat) / 2 ^ 12 % 2 ^ (14 - 12 + 1) = n0.toNat / 16 % 8 := by omega
  have hnote : (256 * n0.toNat + n1.toNat) / 2 ^ 8 % 2 ^ (11 - 8 + 1) = n0.toNat % 16 := by omega
  apply BitVec.eq_of_toNat_eq
  rw [packedCell, cellWord_toNat, instrumentNumber_toNat, bit_getLsbD, extractLsb_toNat_div, extractLsb_toNat_div,
    extractLsb_toNat_div, byte_append_toNat, hihi, hilo, hoct, hnote, BitVec.toNat_ofNat]
  omega

theorem writeCell_mod_channels (p : Song) (slot row c : Nat) (v : CellWord) :
    writeCell p slot row (c % 9) v = writeCell p slot row c v := by
  rw [writeCell, cellAddr_eq_iff.2 ⟨rfl, rfl, Nat.mod_mod c 9⟩]
  rfl

/-- After the channel byte of a packed cell, before its note pair (R143). -/
def State.atNote (s : State) (ch : Byte) : State :=
  startCell (ch.getLsbD 7) (ch.extractLsb 3 0) (seek (s.pos + 1) s)

theorem step_chan {ch : Byte} (hload : s.engine = .load .chan) (heos : s.eos = false)
    (hrom : RomHolds s s.pos (ch :: bytes)) : step s = .next (s.atNote ch) :=
  (step_byteToken hload rfl rfl decode_chan rfl heos hrom).trans (exec_decodeChan _ _)

theorem atNote_chan (s : State) (ch : Byte) : (s.atNote ch).vars.chan.val = ch.toNat % 16 % 9 := by
  have hchidx : (ch.extractLsb 3 0).toNat = ch.toNat % 16 := by rw [extractLsb_toNat_div]; simp
  rw [← hchidx]
  rfl

theorem step_note {n0 n1 : Byte} (hload : s.engine = .load .note) (heos : s.eos = false)
    (hrom : RomHolds s s.pos (n0 :: n1 :: bytes)) :
    step s = exec (decodeNote (n0 ++ n1)) (seek (s.pos + 2) s) := by
  obtain ⟨_, hn0⟩ := hrom.head
  obtain ⟨hpos, hn1⟩ := hrom.tail.head
  have hdec : decode ⟨.note, imageWord s .note⟩ = .instr (decodeNote (n0 ++ n1)) := by
    rw [imageWord_note, decode_note, hn0, hn1]
  exact step_token (f := .note) hload rfl heos hpos hdec

/-- From `s` to `t` the reader moves over `k` bytes, and the cell of the locals is the one change of the song. -/
def StoresCell (s : State) (k : Nat) (v : CellWord) (t : State) : Prop :=
  t.pos = s.pos + k ∧ t.song = writeCell s.song s.vars.slot.val s.vars.row.toNat s.vars.chan.val v

theorem storesCell_endCell (s : State) (k : Nat) (inst : BitVec 5) (oct : BitVec 3) (note eff : BitVec 4)
    (param : Byte) :
    StoresCell s k (cellWord inst oct note eff param)
      (endCell (storeCell inst oct note eff param (seek (s.pos + k) s))) :=
  ⟨(endCell_keeps _).2, (endCell_keeps _).1⟩

/-- After a note pair with a nonzero effect nibble, before its parameter byte (R144, R145). -/
def State.atParam (s : State) (n : Half) : State :=
  { seek (s.pos + 2) s with
    vars := { s.vars with
      inst := instrumentNumber (n.getLsbD 15) (n.extractLsb 7 4), oct := n.extractLsb 14 12,
      note := n.extractLsb 11 8, eff := n.extractLsb 3 0 }
    engine := .load .param }

variable {ch n0 n1 p : Byte}

theorem run_param (hload : s.engine = .load .param) (heos : s.eos = false) (hrom : RomHolds s s.pos (p :: bytes)) :
    ∃ t, Host.Core.run core 1 s = .next t ∧
      StoresCell s 1 (cellWord s.vars.inst s.vars.oct s.vars.note s.vars.eff p) t :=
  ⟨_, run_step (step_byteToken hload rfl rfl decode_param rfl heos hrom) 0, storesCell_endCell s 1 ..⟩

theorem run_note_noparam (hload : s.engine = .load .note) (heos : s.eos = false)
    (hrom : RomHolds s s.pos (n0 :: n1 :: bytes)) (heff : (n0 ++ n1).extractLsb 3 0 = 0) :
    ∃ t, Host.Core.run core 1 s = .next t ∧ StoresCell s 2 (packedCell (n0 ++ n1) 0 0) t := by
  have hstep := step_note hload heos hrom
  rw [decodeNote, if_pos heff] at hstep
  exact ⟨_, run_step hstep 0, storesCell_endCell s 2 ..⟩

theorem run_note_param (hload : s.engine = .load .note) (heos : s.eos = false)
    (hrom : RomHolds s s.pos (n0 :: n1 :: p :: bytes)) (heff : (n0 ++ n1).extractLsb 3 0 ≠ 0) :
    ∃ t, Host.Core.run core 2 s = .next t ∧
      StoresCell s 3 (packedCell (n0 ++ n1) ((n0 ++ n1).extractLsb 3 0) p) t := by
  have hstep : step s = .next (s.atParam (n0 ++ n1)) := by
    rw [step_note hload heos hrom, decodeNote, if_neg heff]
    rfl
  obtain ⟨t, hrun, hpos, hsong⟩ := run_param (s := s.atParam (n0 ++ n1)) rfl heos hrom.tail.tail
  exact ⟨t, (run_step hstep 1).trans hrun, hpos, hsong⟩

/-- A cell is the channel byte and what follows it, on the channel modulo 9 (R143). -/
theorem run_chan {n k : Nat} {v : CellWord} (hload : s.engine = .load .chan) (heos : s.eos = false)
    (hrom : RomHolds s s.pos (ch :: bytes))
    (hrest : ∃ t, Host.Core.run core n (s.atNote ch) = .next t ∧ StoresCell (s.atNote ch) k v t) :
    ∃ t, Host.Core.run core (n + 1) s = .next t ∧ t.pos = s.pos + 1 + k ∧
      t.song = writeCell s.song s.vars.slot.val s.vars.row.toNat (ch.toNat % 16) v := by
  obtain ⟨t, hrun, hpos, hsong⟩ := hrest
  refine ⟨t, (run_step (step_chan hload heos hrom) n).trans hrun, hpos, ?_⟩
  rw [hsong, atNote_chan, writeCell_mod_channels]
  rfl

end PackedCell

/-! ## The obligations of the encoding (spec/30_encoding.md) -/

/-- Settles O55: every format's word, built from fields, decodes to the instruction with those fields. -/
theorem decodeOfEncodeIsIdentity : Obligations.DecodeOfEncodeIsIdentity := by
  intro i hi
  cases i with
  | reset | load | tick => exact decode_req _
  | wrctrl l => cases l <;> exact decode_req _
  | rdreg r => cases r <;> exact decode_req _
  | rdregReservedReg r =>
    rw [encode, decode_req, decodeReq_reservedRegister r (wellFormed_rdregReservedReg.1 hi)]
  | reservedOp5 operand =>
    rw [encode, decode_req, decodeReq_reqWord, reservedBitsSet_of_five_le (by decide)]; rfl
  | reservedOp6 operand =>
    rw [encode, decode_req, decodeReq_reqWord, reservedBitsSet_of_five_le (by decide)]; rfl
  | reservedOp7 operand =>
    rw [encode, decode_req, decodeReq_reqWord, reservedBitsSet_of_five_le (by decide)]; rfl
  | reservedOp8F op operand =>
    rw [encode, decode_req, decodeReq_reservedOp8F operand (wellFormed_reservedOp8F.1 hi)]
  | illegalOperand op operand =>
    have hset : reservedBitsSet op operand = true := hi
    rw [encode, decode_req, decodeReq_reqWord, if_pos hset]
  | hdr d sl ig sp => rw [encode, decode_hdr, decodeHdr_hdrByte]
  | descByte b =>
    rw [encode, decode_desc, decodeDesc, if_neg (wellFormed_descByte.1 hi)]
  | descEnd => exact decode_desc 0
  | islotEnd => exact decode_islot 0
  | islot n => rw [encode, decode_islot, decodeIslot_append (wellFormed_islot.1 hi)]
  | islotBad n =>
    have hn : 32 ≤ n.toNat := wellFormed_islotBad.1 hi
    rw [encode, decode_islot, decodeIslot, if_neg (by rintro rfl; cases hn), if_neg (by omega)]
  | irecByte b => exact decode_irec b
  | olen l => exact decode_olen l
  | oent e => exact decode_oent e
  | pofsUnused => exact decode_pofs 0
  | pofs ofs =>
    rw [encode, decode_pofs, decodePofs, if_neg (wellFormed_pofs.1 hi)]
  | line ig row => rw [encode, decode_line, decodeLine_lineByte]; rfl
  | lineLast ig row => rw [encode, decode_line, decodeLine_lineByte]; rfl
  | chan ig c => rw [encode, decode_chan, decodeChan_chanByte]; rfl
  | chanLast ig c => rw [encode, decode_chan, decodeChan_chanByte]; rfl
  | noteNoparam ihi oct note ilo => rw [encode, decode_note, decodeNote_noteWord]; rfl
  | noteParam ihi oct note ilo eff =>
    rw [encode, decode_note, decodeNote_noteWord, if_neg (wellFormed_noteParam.1 hi)]
  | param p => exact decode_param p
  | cellEmpty inst oct eff p => rw [encode, decode_cell, decodeCell_cellWord]; rfl
  | cellKeyoff inst oct eff p => rw [encode, decode_cell, decodeCell_cellWord]; rfl
  | cellNote oct note eff p =>
    obtain ⟨hempty, hkeyoff⟩ := wellFormed_cellNote.1 hi
    rw [encode, decode_cell, decodeCell_cellWord, if_neg hempty, if_neg hkeyoff, if_pos rfl]
  | cellNoteInst inst oct note eff p =>
    obtain ⟨hinst, hempty, hkeyoff⟩ := wellFormed_cellNoteInst.1 hi
    rw [encode, decode_cell, decodeCell_cellWord, if_neg hempty, if_neg hkeyoff, if_neg hinst]
  | setInstrument ch l inst data =>
    obtain ⟨hch, hinst⟩ := wellFormed_setInstrument.1 hi
    exact (decode_cmd _).trans (decodeCmd_setInstrumentWord l data hch hinst)
  | setFrequency ch oct note =>
    obtain ⟨hch, hnote⟩ := wellFormed_setFrequency.1 hi
    exact (decode_cmd _).trans (decodeCmd_setFrequencyWord oct hch hnote)
  | keyOn ch => exact (decode_cmd _).trans (decodeCmd_keyOnWord hi)
  | keyOff ch => exact (decode_cmd _).trans (decodeCmd_keyOffWord hi)

/-- Settles O28: the channel byte is one step, and the note pair one or two more; only the last of them writes the
song. -/
theorem packedCellTakesThreeOrFourBytes : Obligations.PackedCellTakesThreeOrFourBytes := by
  intro s ch n0 n1 p hload heos
  have heff : ((n0 ++ n1).extractLsb 3 0).toNat = n1.toNat % 16 := by
    rw [extractLsb_toNat_div, byte_append_toNat]
    omega
  constructor
  case left =>
    intro hnibble hrom
    have hzero : (n0 ++ n1).extractLsb 3 0 = 0 := BitVec.eq_of_toNat_eq (heff.trans hnibble)
    have hcell := run_chan hload heos hrom (run_note_noparam rfl heos hrom.tail hzero)
    simpa [packedCell_eq] using hcell
  case right =>
    intro hnibble hrom
    have hne : (n0 ++ n1).extractLsb 3 0 ≠ 0 := fun h => hnibble (heff.symm.trans (congrArg BitVec.toNat h))
    have hcell := run_chan hload heos hrom (run_note_param rfl heos hrom.tail hne)
    rwa [packedCell_eq, heff] at hcell

/-- Settles O56: under each format a word is put together from the fields the decoder reads from it. -/
theorem encodeOfDecodeIsIdentity : Obligations.EncodeOfDecodeIsIdentity := by
  rintro ⟨f, n⟩ i h
  change i.EncodedAs f n
  obtain ⟨w, rfl⟩ : ∃ w : BitVec f.width, n = w.toNat :=
    ⟨BitVec.ofNat _ n, (Nat.mod_eq_of_lt (decode_fits h)).symm⟩
  cases f with
  | req => cases (decode_req w).symm.trans h; exact decodeReq_encodedAs w
  | hdr => cases (decode_hdr w).symm.trans h; exact decodeHdr_encodedAs w
  | desc => cases (decode_desc w).symm.trans h; exact decodeDesc_encodedAs w
  | islot => cases (decode_islot w).symm.trans h; exact decodeIslot_encodedAs w
  | irec => cases (decode_irec w).symm.trans h; exact ⟨rfl, rfl⟩
  | olen => cases (decode_olen w).symm.trans h; exact ⟨rfl, rfl⟩
  | oent => cases (decode_oent w).symm.trans h; exact ⟨rfl, rfl⟩
  | pofs => cases (decode_pofs w).symm.trans h; exact decodePofs_encodedAs w
  | line => cases (decode_line w).symm.trans h; exact decodeLine_encodedAs w
  | chan => cases (decode_chan w).symm.trans h; exact decodeChan_encodedAs w
  | note => cases (decode_note w).symm.trans h; exact decodeNote_encodedAs w
  | param => cases (decode_param w).symm.trans h; exact ⟨rfl, rfl⟩
  | cell => cases (decode_cell w).symm.trans h; exact decodeCell_encodedAs w
  | cmd => exact decodeCmd_encodedAs ((decode_cmd w).symm.trans h)

/-- Settles O57: the decoder's tests, read as numbers. -/
theorem neverEmittedCommandWordsRejected : Obligations.NeverEmittedCommandWordsRejected := by
  intro w
  rw [decode_cmd, decodeCmd_rejected_iff, isChannel_eq_false, isPitch_eq_false]
  simp only [BitVec.ofNat_eq_ofNat, ne_eq, extractLsb_eq_ofNat_iff, extractLsb_toNat_div]
  split_ifs <;> omega

/-- Settles O59: no meaning reads an ignored bit, and outside CMD no decoder rejects. -/
theorem ignoredBitsChangeNothing : Obligations.IgnoredBitsChangeNothing := fun s =>
  ⟨fun _ _ => exec_decodeHdr_congr s, fun _ _ => exec_decodeLine_congr s, fun _ _ => exec_decodeChan_congr s,
    fun f n hf hn => by
      rw [← Nat.mod_eq_of_lt hn]
      exact decode_total hf (BitVec.ofNat _ n)⟩

/-- Settles O43: each of the four emissions tests its operands first. -/
theorem neverEmittedCommandsAreRefused : Obligations.NeverEmittedCommandsAreRefused :=
  fun s _ _ _ _ oct _ =>
    ⟨emitSetInstrument_refused s, emitSetFrequency_refused s oct,
      fun h => ⟨emitKeyOn_refused s h, emitKeyOff_refused s h⟩⟩

/-- Settles O58: the decoder evaluated on the ten words. -/
theorem writtenOutWordsDecode : Obligations.WrittenOutWordsDecode := by
  unfold Obligations.WrittenOutWordsDecode
  decide

end Sys2Proof.Machine

/-! ## The tokens of a LOAD (spec/40_load.md R133 to R149) -/

namespace Sys2Proof.Machine

section TruncatedTokens

variable {s : State}

theorem checkEos_of_eos (heos : s.eos = true) (k : State → Fetched) :
    checkEos s k = .settled (raiseFault .truncatedInput s) := if_pos heos

theorem byteToken_past (d : Byte → Instr) (h : s.romLen ≤ s.pos) : ∃ o, byteToken d s = .settled o :=
  ⟨_, checkEos_of_eos (by rw [readByte_past h]) _⟩

theorem wordToken_past (d : Half → Instr) (h : s.romLen ≤ s.pos + 1) : ∃ o, wordToken d s = .settled o := by
  refine ⟨_, checkEos_of_eos ?_ _⟩
  obtain hlast | hpast := h.eq_or_lt
  · rw [readWord_straddling hlast.symm]
  · rw [readWord_past (Nat.lt_succ_iff.1 hpast)]

theorem noteToken_past (h : s.romLen ≤ s.pos + 1) : ∃ o, noteToken s = .settled o := by
  unfold noteToken
  cases heos : (readByte s).2.eos with
  | true => exact ⟨_, checkEos_of_eos heos _⟩
  | false =>
    have hpos : s.pos < s.romLen := by
      by_contra hpast
      simp [readByte_past (Nat.not_lt.1 hpast)] at heos
    have hsecond : (readByte (readByte s).2).2.eos = true := by
      rw [readByte_inside hpos, readByte_past h]
    simp only [checkEos, heos, hsecond]
    exact ⟨_, rfl⟩

/-- A token that does not lie whole inside the image is not fetched (R149); the header's byte is not checked (R133). -/
theorem loadFetch_past {p : Phase} {f : Format} (hp : p.format = some f) (hhdr : p ≠ .hdr)
    (h : s.romLen < s.pos + tokenLength f) : ∃ o, loadFetch s p = .settled o := by
  cases p with
  | hdr => exact absurd rfl hhdr
  | desc | islot | irec | olen | oent | line | chan | param =>
    cases hp; exact byteToken_past _ (Nat.lt_succ_iff.1 h)
  | pofs => cases hp; exact wordToken_past _ (Nat.lt_succ_iff.1 h)
  | note => cases hp; exact noteToken_past (Nat.lt_succ_iff.1 h)
  | slot | validate => cases hp

/-- Such a token ends the LOAD by fault entry. -/
theorem step_truncated {p : Phase} {f : Format} (hload : s.engine = .load p) (hp : p.format = some f)
    (hhdr : p ≠ .hdr) (h : s.romLen < s.pos + tokenLength f) :
    ∃ u, ReaderMoves s u ∧ u.eos = true ∧ step s = .next (faultEntry .truncatedInput u) := by
  obtain ⟨o, ho⟩ := loadFetch_past hp hhdr h
  have hstep : step s = o := by simp only [step, fetch, hload, ho]
  obtain ⟨rfl, -⟩ | ⟨rfl, -⟩ | ⟨u, hu, heos, rfl⟩ := loadFetch_settled ho
  · cases hp
  · cases hp
  · exact ⟨u, hu, heos, hstep⟩

end TruncatedTokens

/-- Settles O14: a token past the image is not fetched, and where LOAD fetches no token there it has truncated. -/
theorem truncatedTokenFailsLoad : Obligations.TruncatedTokenFailsLoad := by
  intro s p f hload hp hhdr h
  obtain ⟨u, ⟨hu, -⟩, heos, hstep⟩ := step_truncated hload hp hhdr h
  refine ⟨_, hstep, ?_⟩
  rw [hu, heos]
  rfl

/-- Settles O15: the fields of the header byte are read off its bits, and the description tokens set the phase only. -/
theorem headerTokensKeepOnlySongFlags : Obligations.HeaderTokensKeepOnlySongFlags := by
  refine fun s => ⟨fun b => ?_, fun _ _ _ _ => rfl, fun _ => rfl, rfl⟩
  have hdesc : (b.getLsbD 7 = true) ↔ b.toNat / 128 = 1 := by rw [getLsbD_eq_true_iff]; omega
  have hslow : b.getLsbD 6 = decide (b.toNat / 64 % 2 = 1) := by
    rw [Bool.eq_iff_iff, getLsbD_eq_true_iff, decide_eq_true_iff]; rfl
  have hspeed : b.extractLsb 4 0 = BitVec.ofNat 5 (b.toNat % 32) :=
    (extractLsb_eq_ofNat_iff b 4 0 _).2 (by omega)
  simp only [← hdesc, ← hslow, ← hspeed]
  rfl

theorem entryOf_val (n : BitVec 5) (h : n ≠ 0) : (entryOf n h).val + 1 = n.toNat := by
  have hpos : n.toNat ≠ 0 := fun h0 => h (BitVec.eq_of_toNat_eq h0)
  simp only [entryOf]
  omega

theorem execIslot_of_ne_zero {n : BitVec 5} (h : n ≠ 0) (s : State) :
    execIslot n s =
      .next { s with vars := { s.vars with entry := entryOf n h, byteNo := 0 }, engine := .load .irec } :=
  dif_pos h

theorem getElem_set_fin {α : Type} {n : Nat} (v : Vector α n) (i j : Fin n) (x : α) :
    (v.set i x)[j] = if j = i then x else v[j] := by
  simp [Vector.getElem_set, Fin.ext_iff, eq_comm]

theorem getElem_set_record (irom : Vector (Vector Byte 11) 31) (e e' : Fin 31) (k k' : Fin 11) (b : Byte) :
    (irom.set e (irom[e].set k b))[e'][k'] = if e' = e ∧ k' = k then b else irom[e'][k'] := by
  rw [getElem_set_fin]
  by_cases he : e' = e
  · subst he; rw [if_pos rfl, getElem_set_fin]; simp
  · simp [he]

/-- Settles O16: a record byte is set in the entry selected, and the eleventh sets the flag of the same entry. -/
theorem instrumentTokensFillInstrumentRom : Obligations.InstrumentTokensFillInstrumentRom := by
  refine fun s => ⟨rfl, fun _ => rfl, fun n hn => ⟨entryOf n hn, entryOf_val n hn, execIslot_of_ne_zero hn s⟩,
    fun b => ?record⟩
  have hrecord := getElem_set_record s.song.irom s.vars.entry (k := s.vars.byteNo) (b := b)
  by_cases hmore : s.vars.byteNo.val < 10
  · have hk : s.vars.byteNo ≠ 10 := fun h => by rw [h] at hmore; exact absurd hmore (by decide)
    exact ⟨_, dif_pos hmore, by rw [if_neg hk], fun _ => rfl, hrecord, by simp [hk]⟩
  · have hk : s.vars.byteNo = 10 := Fin.ext (by have := s.vars.byteNo.isLt; omega)
    exact ⟨_, dif_neg hmore, by rw [if_pos hk], fun h => absurd hk h, hrecord, fun e => by
      simpa [hk] using getElem_set_fin s.song.iloaded s.vars.entry e true⟩

/-- Settles O17: the length byte and each entry choose the next phase by one comparison. -/
theorem orderTokensFillOrderList : Obligations.OrderTokensFillOrderList := by
  refine fun s => ⟨fun l => ?length, fun e => ?entry⟩
  case length =>
    by_cases hl : l = 0
    · exact ⟨_, if_pos hl, by rw [if_pos hl]; rfl, rfl, fun _ => rfl⟩
    · exact ⟨_, if_neg hl, by rw [if_neg hl], rfl, fun h => absurd h hl⟩
  case entry =>
    have hentry := getElem_set_fin s.song.ordlist s.vars.orderNo (x := e)
    by_cases hmore : s.vars.orderNo.val + 1 < s.song.songlen.toNat
    · exact ⟨_, dif_pos hmore, by rw [if_pos hmore], hentry, fun _ => rfl, fun h => absurd hmore h.not_gt⟩
    · exact ⟨_, dif_neg hmore, by rw [if_neg hmore]; rfl, hentry, fun h => absurd h hmore, fun _ => rfl⟩

theorem exec_decodePofs (w : Half) (s : State) : exec (decodePofs w) s = .next (storeOffset w s) := by
  unfold decodePofs
  split
  · next hw => subst hw; rfl
  · rfl

/-- Settles O18: every spelling of an offset token stores its word. -/
theorem offsetTokensFillOffsetTable : Obligations.OffsetTokensFillOffsetTable := by
  intro s w i hi
  have hexec : exec i s = .next (storeOffset w s) := by
    rcases hi with rfl | rfl | ⟨rfl, rfl⟩
    · exact exec_decodePofs w s
    · rfl
    · rfl
  have hword := getElem_set_fin s.song.pofs s.vars.slot (x := w)
  refine ⟨_, hexec, ?_⟩
  unfold storeOffset
  dsimp only
  split
  · next hmore =>
    have hslot : s.vars.slot ≠ 31 := fun h => by rw [h] at hmore; exact absurd hmore (by decide)
    exact ⟨by rw [if_neg hslot], (Nat.mod_eq_of_lt (by omega)).symm, hword⟩
  · next hlast =>
    have hslot : s.vars.slot = 31 := Fin.ext (by have := s.vars.slot.isLt; simp; omega)
    exact ⟨by rw [if_pos hslot], by simp [hslot], hword⟩

/-- Settles O19: the four meanings as they stand, on the channel modulo 9. -/
theorem lineAndChannelTokensSelectPlace : Obligations.LineAndChannelTokensSelectPlace :=
  fun _ _ _ _ c => ⟨rfl, rfl, ⟨channelOf c, rfl, rfl⟩, channelOf c, rfl, rfl⟩

/-! ## The end of a cell and of a slot (spec/40_load.md R140, R146 to R148) -/

section SlotWalk

variable {s : State}

theorem slot_succ_val {k : Fin 32} (h : k ≠ 31) : (k + 1).val = k.val + 1 :=
  Fin.val_add_one_of_lt (Fin.lt_last_iff_ne_last.2 h)

theorem nextSlot_of_ne (h : s.vars.slot ≠ 31) :
    nextSlot s = { s with vars := { s.vars with slot := s.vars.slot + 1 }, engine := .load .slot } := by
  have hval := slot_succ_val h
  have hmore : s.vars.slot.val < 31 := by omega
  rw [nextSlot, dif_pos hmore]
  simp only [← hval]

theorem nextSlot_of_last (h : s.vars.slot = 31) : nextSlot s = { s with engine := .load .validate } :=
  dif_neg (by simp [h])

theorem nextSlot_frame (s : State) :
    nextSlot s = { s with vars := (nextSlot s).vars, engine := (nextSlot s).engine } := by
  unfold nextSlot; split <;> rfl

theorem endCell_frame (s : State) :
    endCell s = { s with vars := (endCell s).vars, engine := (endCell s).engine } := by
  unfold endCell
  split_ifs
  · exact nextSlot_frame s
  · rfl
  · rfl

/-- Where the LOAD goes on after a cell, and what becomes of its locals. -/
theorem endCell_goesOn (s : State) :
    (endCell s).engine = .load (
      if s.vars.chanLast = false then .chan
      else if s.vars.lineLast = false then .line
      else if s.vars.slot = 31 then .validate else .slot) ∧
    (endCell s).vars = (if s.vars.chanLast = true ∧ s.vars.lineLast = true ∧ s.vars.slot ≠ 31
      then { s.vars with slot := s.vars.slot + 1 } else s.vars) := by
  unfold endCell
  cases hchan : s.vars.chanLast with
  | false => simp
  | true =>
    cases hline : s.vars.lineLast with
    | false => simp
    | true =>
      by_cases hslot : s.vars.slot = 31
      · simp [nextSlot_of_last hslot, hslot]
      · simp [nextSlot_of_ne hslot, hslot]

theorem step_slot (hload : s.engine = .load .slot) : step s = slotStep s := by
  simp only [step, fetch, hload, loadFetch]

theorem slotStep_unused (h : s.song.pofs[s.vars.slot] = 0) : slotStep s = .next (nextSlot s) := if_pos h

theorem slotStep_past (h : s.song.pofs[s.vars.slot] ≠ 0) (hpast : s.romLen ≤ s.song.pofs[s.vars.slot].toNat) :
    slotStep s = raiseFault .malformedModule s :=
  (if_neg h).trans (if_pos hpast)

theorem slotStep_inside (h : s.song.pofs[s.vars.slot] ≠ 0) (hin : s.song.pofs[s.vars.slot].toNat < s.romLen) :
    slotStep s = .next { seek s.song.pofs[s.vars.slot].toNat s with engine := .load .line } :=
  (if_neg h).trans (if_neg hin.not_ge)

end SlotWalk

/-- Settles O21: both tokens end in the same way, whatever cell they write. -/
theorem cellEndsLinePatternOrWalk : Obligations.CellEndsLinePatternOrWalk := by
  rintro s t i (⟨ihi, oct, note, ilo, rfl⟩ | ⟨p, rfl⟩) h
  · cases h; exact endCell_goesOn (storeCell (instrumentNumber ihi ilo) oct note 0 0 s)
  · cases h; exact endCell_goesOn (storeCell s.vars.inst s.vars.oct s.vars.note s.vars.eff p s)

/-- Settles O22: the four ways of the slot walk. -/
theorem slotWalkSeeksOrRefuses : Obligations.SlotWalkSeeksOrRefuses := by
  intro s hload
  rw [step_slot hload]
  refine ⟨fun h hslot => ?more, fun h hslot => ?last, slotStep_past, slotStep_inside⟩
  case more => rw [slotStep_unused h, nextSlot_of_ne hslot, hload]
  case last => rw [slotStep_unused h, nextSlot_of_last hslot]

/-- The cell written is the one of slot, row and channel, and every other cell reads as before. -/
theorem readCell_writeCell (p : Song) (hp : Store.wf 0 p.prom = true) (k k' : Fin 32) (r r' : BitVec 6)
    (c c' : Fin 9) (v : CellWord) :
    readCell (writeCell p k.val r.toNat c.val v) k'.val r'.toNat c'.val =
      if k' = k ∧ r' = r ∧ c' = c then v else readCell p k'.val r'.toNat c'.val := by
  rw [(cellWriteReadsBackModuloBounds p _ _ _ _ _ _ v hp).2]
  have hr := r.isLt
  have hr' := r'.isLt
  simp only [Nat.mod_eq_of_lt, Fin.is_lt, hr, hr', Fin.ext_iff, ← BitVec.toNat_inj, eq_comm]

/-- What NOTE_NOPARAM and PARAM do: one cell is written, and the LOAD goes on. -/
theorem endCell_storeCell_writes (s : State) (hs : Store.wf 0 s.song.prom = true) (inst : BitVec 5)
    (oct : BitVec 3) (note eff : BitVec 4) (param : Byte) {t : State}
    (ht : t = endCell (storeCell inst oct note eff param s)) :
    t = { s with song := { s.song with prom := t.song.prom }, vars := t.vars, engine := t.engine } ∧
      ∀ (k : Fin 32) (r : BitVec 6) (c : Fin 9), readCell t.song k.val r.toNat c.val =
        if k = s.vars.slot ∧ r = s.vars.row ∧ c = s.vars.chan then cellWord inst oct note eff param
        else readCell s.song k.val r.toNat c.val := by
  have hframe := endCell_frame (storeCell inst oct note eff param s)
  rw [← ht] at hframe
  refine ⟨by rw [hframe]; rfl, fun k r c => ?_⟩
  rw [hframe]
  exact readCell_writeCell s.song hs ..

/-- Settles O20: both tokens write the cell they end. -/
theorem noteTokensWriteOneCell : Obligations.NoteTokensWriteOneCell := by
  intro s hs
  refine ⟨fun ihi oct note ilo => ⟨_, rfl, ?noparam⟩, fun ihi oct note ilo eff =>
    ⟨instrumentNumber ihi ilo, instrumentNumber_toNat ihi ilo, rfl⟩, fun p => ⟨_, rfl, ?param⟩⟩
  case noparam =>
    obtain ⟨hframe, hcell⟩ := endCell_storeCell_writes s hs (instrumentNumber ihi ilo) oct note 0 0 rfl
    refine ⟨hframe, fun k r c => ?_⟩
    rw [hcell, apply_ite BitVec.toNat, cellWord_toNat, instrumentNumber_toNat]
    simp
  case param =>
    obtain ⟨hframe, hcell⟩ :=
      endCell_storeCell_writes s hs s.vars.inst s.vars.oct s.vars.note s.vars.eff p rfl
    refine ⟨hframe, fun k r c => ?_⟩
    rw [hcell, apply_ite BitVec.toNat, cellWord_toNat]

/-! ## The validation (spec/40_load.md R150 to R153) -/

section Validation

theorem status_eq (s : State) : s.status = BitVec.ofNat 16 (statusNumber s) := by
  rw [← status_toNat, BitVec.ofNat_toNat, BitVec.setWidth_eq]

theorem slotOf_toNat (e : Byte) : (slotOf e).toNat = e.toNat % 32 := by
  rw [slotOf, BitVec.toNat_ofNat]; omega

theorem isAllocated_slotOf_eq_false {p : Song} {e : Byte} :
    isAllocated p (slotOf e) = false ↔ p.pofs[e.toNat % 32]? = some (0 : Half) := by
  have hlt : e.toNat % 32 < 32 := Nat.mod_lt _ (by decide)
  simp only [isAllocated, patternOffset, slotOf_toNat, bne_eq_false_iff_eq, Vector.getElem?_eq_getElem hlt,
    Option.some.injEq]

/-- An order entry below SONGLEN names an unused slot. -/
theorem ordersResolve_eq_false {p : Song} :
    ordersResolve p = false ↔
      ∃ i : Fin 255, i.val < p.songlen.toNat ∧ p.pofs[p.ordlist[i].toNat % 32]? = some (0 : Half) := by
  simp only [ordersResolve, orderEntries, List.all_eq_false, Bool.not_eq_true, isAllocated_slotOf_eq_false]
  constructor
  · rintro ⟨e, he, hunused⟩
    obtain ⟨i, hi, rfl⟩ := List.mem_take_iff_getElem.1 he
    simp only [Vector.length_toList, Nat.lt_min] at hi
    exact ⟨⟨i, hi.2⟩, hi.1, by simpa using hunused⟩
  · rintro ⟨i, hi, hunused⟩
    exact ⟨p.ordlist[i], List.mem_take_iff_getElem.2 ⟨i.val, by simp [hi], by simp⟩, hunused⟩

/-- The reasons to refuse a song (R150, R151, R152). -/
abbrev Song.Refused (p : Song) : Prop :=
  p.speed.toNat = 0 ∨ p.songlen.toNat = 0 ∨
    ∃ i : Fin 255, i.val < p.songlen.toNat ∧ p.pofs[p.ordlist[i].toNat % 32]? = some (0 : Half)

theorem step_validate {s : State} (hload : s.engine = .load .validate) : step s = validateStep s := by
  simp only [step, fetch, hload, loadFetch]

theorem validateStep_refuses {s : State} (h : s.song.Refused) : validateStep s = raiseFault .malformedModule s := by
  unfold validateStep
  rw [Song.Refused, ← ordersResolve_eq_false] at h
  split_ifs with hspeed hlen horders
  · rfl
  · rfl
  · obtain h | h | h := h
    · exact absurd (BitVec.eq_of_toNat_eq h) hspeed
    · exact absurd (BitVec.eq_of_toNat_eq h) hlen
    · exact absurd (horders.symm.trans h) nofun
  · rfl

theorem validateStep_commits {s : State} (h : ¬ s.song.Refused) : validateStep s = .next (commitLoad s) := by
  rw [Song.Refused, not_or, not_or, ← ordersResolve_eq_false, Bool.not_eq_false] at h
  obtain ⟨hspeed, hlen, horders⟩ := h
  rw [validateStep, if_neg fun h => hspeed (by rw [h]; rfl), if_neg fun h => hlen (by rw [h]; rfl), if_pos horders]

/-- The committed state answers with its own STATUS (R153). -/
theorem commitLoad_response (s : State) :
    (commitLoad s).response = some ⟨.ok, BitVec.ofNat 16 (statusNumber (commitLoad s)), []⟩ := by
  rw [← status_eq]; rfl

end Validation

/-- Settles O23: the three tests in turn, and the commit where none of them refuses. -/
theorem validationRefusesOrCommits : Obligations.ValidationRefusesOrCommits := by
  intro s hload
  rw [step_validate hload]
  by_cases h : s.song.Refused
  · exact ⟨_, validateStep_refuses h, fun _ => rfl, fun hnot => absurd h hnot⟩
  · refine ⟨_, validateStep_commits h, fun hyes => absurd hyes h, fun _ => ⟨?_, slotOf_toNat _⟩⟩
    rw [← commitLoad_response]
    rfl

/-- Settles O31: a LOAD that answers OK has not failed, so it has committed. -/
theorem loadSuccessStartsPlayback : Obligations.LoadSuccessStartsPlayback := by
  intro s t r h hr hok
  obtain ⟨_, u, _, _, rfl⟩ | ⟨u, _, _, _, _, rfl⟩ := execLoad_cases h
  · cases hr; cases hok
  · cases (commitLoad_response u).symm.trans hr
    exact ⟨rfl, rfl, rfl, slotOf_toNat _, rfl, rfl, rfl, rfl, rfl⟩

end Sys2Proof.Machine

/-! ## Runs of tokens inside a LOAD (spec/40_load.md R134 to R139) -/

namespace Sys2Proof.Machine

section Overwrite

variable {α : Type} {n : Nat}

/-- Entries read in file order over a store: the k-th entry from index `i` on replaces what stood there. -/
def overwrite (old : Fin n → α) (i : Nat) (xs : List α) (k : Fin n) : α :=
  if i ≤ k.val then xs.getD (k.val - i) (old k) else old k

@[simp] theorem overwrite_nil (old : Fin n → α) (i : Nat) (k : Fin n) : overwrite old i [] k = old k := by
  simp [overwrite]

@[simp] theorem overwrite_zero (old : Fin n → α) (xs : List α) (k : Fin n) :
    overwrite old 0 xs k = xs.getD k.val (old k) := by
  simp [overwrite]

/-- Writing one entry and then the rest after it is writing them all. -/
theorem overwrite_cons {old new : Fin n → α} {i : Fin n} {x : α}
    (h : ∀ k, new k = if k = i then x else old k) (xs : List α) (k : Fin n) :
    overwrite new (i.val + 1) xs k = overwrite old i.val (x :: xs) k := by
  unfold overwrite
  obtain hlt | heq | hgt := Nat.lt_trichotomy k.val i.val
  · have hne : k ≠ i := fun h => by rw [h] at hlt; exact absurd hlt (Nat.lt_irrefl _)
    rw [if_neg (by omega), if_neg (by omega), h, if_neg hne]
  · rw [if_neg (by omega), if_pos heq.ge, h, if_pos (Fin.ext heq), heq, Nat.sub_self]
    rfl
  · have hne : k ≠ i := fun h => by rw [h] at hgt; exact absurd hgt (Nat.lt_irrefl _)
    have hindex : k.val - i.val = k.val - (i.val + 1) + 1 := by omega
    rw [if_pos (Nat.succ_le_of_lt hgt), if_pos hgt.le, h, if_neg hne, hindex, List.getD_cons_succ]

end Overwrite

section TokenRuns

variable {s : State} {b : Byte} {bytes : List Byte}

theorem RomHolds.append {a : Nat} {xs ys : List Byte} (h : RomHolds s a (xs ++ ys)) :
    RomHolds s a xs ∧ RomHolds s (a + xs.length) ys := by
  obtain ⟨hlen, hread⟩ := h
  rw [List.length_append] at hlen
  refine ⟨⟨by omega, fun k => ?_⟩, by omega, fun k => ?_⟩
  · simpa using hread ⟨k.val, by simp; omega⟩
  · simpa [Nat.add_assoc] using hread ⟨xs.length + k.val, by simp⟩

theorem run_add (m n : Nat) (s : State) :
    Host.Core.run core (m + n) s = andThen (Host.Core.run core m s) (Host.Core.run core n) := by
  induction m generalizing s with
  | zero => rw [Nat.zero_add]; rfl
  | succ m ih =>
    rw [Nat.add_right_comm, run_succ, run_succ]
    cases step s with
    | next t => exact ih t
    | fault r => rfl
    | refused r => rfl

/-- In `n` steps the LOAD goes on from `s` to `t`, and writes only the song, POS, the locals and the phase. -/
structure LoadRun (n : Nat) (s t : State) : Prop where
  run : Host.Core.run core n s = .next t
  frame : t = { s with song := t.song, pos := t.pos, vars := t.vars, engine := t.engine }

theorem LoadRun.refl (s : State) : LoadRun 0 s s := ⟨rfl, rfl⟩

theorem LoadRun.trans {m n : Nat} {s t u : State} (hst : LoadRun m s t) (htu : LoadRun n t u) :
    LoadRun (m + n) s u where
  run := by rw [run_add, hst.run]; exact htu.run
  frame := by rw [htu.frame, hst.frame]

theorem LoadRun.eos_eq {n : Nat} {s t : State} (h : LoadRun n s t) : t.eos = s.eos := by rw [h.frame]

theorem LoadRun.romHolds {n a : Nat} {s t : State} (h : LoadRun n s t) (hrom : RomHolds s a bytes) :
    RomHolds t a bytes := by
  rw [h.frame]; exact hrom

theorem LoadRun.of_step {s t : State} (h : step s = .next t)
    (hframe : t = { s with song := t.song, pos := t.pos, vars := t.vars, engine := t.engine }) : LoadRun 1 s t :=
  ⟨run_step h 0, hframe⟩

theorem step_desc (hload : s.engine = .load .desc) (heos : s.eos = false) (hrom : RomHolds s s.pos (b :: bytes)) :
    step s = .next { s with pos := s.pos + 1, engine := .load (if b = 0 then .islot else .desc) } := by
  rw [step_byteToken hload rfl rfl decode_desc rfl heos hrom, decodeDesc]
  split <;> rfl

theorem run_description (hload : s.engine = .load .desc) (heos : s.eos = false) (hne : ∀ b ∈ bytes, b ≠ 0)
    (hrom : RomHolds s s.pos (bytes ++ [0])) :
    Host.Core.run core (bytes.length + 1) s =
      .next { s with pos := s.pos + bytes.length + 1, engine := .load .islot } := by
  induction bytes generalizing s with
  | nil => exact run_step (step_desc hload heos hrom) 0
  | cons b bytes ih =>
    obtain ⟨hb, hne⟩ := List.forall_mem_cons.1 hne
    have hstep := step_desc hload heos hrom
    rw [if_neg hb] at hstep
    rw [List.length_cons, run_step hstep,
      ih (s := { s with pos := s.pos + 1, engine := .load .desc }) rfl heos hne hrom.tail]
    simp only [Nat.add_assoc, Nat.add_comm 1]

/-- One record byte: it goes to the entry selected, and the eleventh ends the record (R137). -/
theorem loadRun_irec (hload : s.engine = .load .irec) (heos : s.eos = false) (hrom : RomHolds s s.pos (b :: bytes)) :
    ∃ t, LoadRun 1 s t ∧ t.pos = s.pos + 1 ∧
      t.engine = .load (if s.vars.byteNo = 10 then .islot else .irec) ∧
      t.vars.entry = s.vars.entry ∧ (s.vars.byteNo ≠ 10 → t.vars.byteNo.val = s.vars.byteNo.val + 1) ∧
      t.song = { s.song with irom := t.song.irom, iloaded := t.song.iloaded } ∧
      (∀ (e : Fin 31) (k : Fin 11), t.song.irom[e][k] =
        if e = s.vars.entry ∧ k = s.vars.byteNo then b else s.song.irom[e][k]) ∧
      ∀ e : Fin 31, t.song.iloaded[e] =
        if e = s.vars.entry ∧ s.vars.byteNo = 10 then true else s.song.iloaded[e] := by
  obtain ⟨-, -, -, htoken⟩ := instrumentTokensFillInstrumentRom (seek (s.pos + 1) s)
  obtain ⟨t, hexec, ht, hnext, hirom, hloaded⟩ := htoken b
  have hstep := (step_byteToken hload rfl rfl decode_irec rfl heos hrom).trans hexec
  exact ⟨t, .of_step hstep (by rw [ht]; rfl), congrArg State.pos ht, congrArg State.engine ht,
    congrArg (fun t => t.vars.entry) ht, hnext, congrArg State.song ht, hirom, hloaded⟩

/-- The bytes of a record still to come, the last of them the eleventh, go to the entry selected (R137). -/
theorem loadRun_record (hload : s.engine = .load .irec) (heos : s.eos = false)
    (hlast : s.vars.byteNo.val + bytes.length = 10) (hrom : RomHolds s s.pos (b :: bytes)) :
    ∃ t, LoadRun (bytes.length + 1) s t ∧ t.pos = s.pos + (bytes.length + 1) ∧ t.engine = .load .islot ∧
      t.song = { s.song with irom := t.song.irom, iloaded := t.song.iloaded } ∧
      (∀ (e : Fin 31) (k : Fin 11), t.song.irom[e][k] =
        if e = s.vars.entry then overwrite (fun k => s.song.irom[e][k]) s.vars.byteNo.val (b :: bytes) k
        else s.song.irom[e][k]) ∧
      ∀ e : Fin 31, t.song.iloaded[e] = if e = s.vars.entry then true else s.song.iloaded[e] := by
  induction bytes generalizing s b with
  | nil =>
    obtain ⟨t, hst, hpos, hengine, -, -, hsong, hirom, hloaded⟩ := loadRun_irec hload heos hrom
    have hk : s.vars.byteNo = 10 := Fin.ext hlast
    refine ⟨t, hst, hpos, by rw [hengine, if_pos hk], hsong, fun e k => ?_,
      by simpa only [hk, and_true] using hloaded⟩
    by_cases he : e = s.vars.entry
    · rw [if_pos he, ← overwrite_cons (new := fun k => t.song.irom[e][k]) (x := b), overwrite_nil]
      intro k
      rw [hirom]; simp only [he, true_and]
    · rw [hirom, if_neg fun h => he h.1, if_neg he]
  | cons b' bytes ih =>
    obtain ⟨t, hst, hpos, hengine, hentry, hbyteNo, hsong, hirom, hloaded⟩ := loadRun_irec hload heos hrom
    have hk : s.vars.byteNo ≠ 10 := fun h => by rw [h] at hlast; simp at hlast
    rw [if_neg hk] at hengine
    obtain ⟨u, htu, hpos', hengine', hsong', hirom', hloaded'⟩ :=
      ih hengine (hst.eos_eq.trans heos) (by rw [hbyteNo hk, ← hlast, List.length_cons]; omega)
        (hpos ▸ hst.romHolds hrom.tail)
    refine ⟨u, Nat.add_comm 1 _ ▸ hst.trans htu, by rw [hpos', hpos, List.length_cons]; omega, hengine',
      by rw [hsong', hsong], fun e k => ?_, fun e => ?_⟩
    · rw [hirom', hentry]
      by_cases he : e = s.vars.entry
      · rw [if_pos he, if_pos he, hbyteNo hk]
        refine overwrite_cons (fun k => ?_) _ _
        rw [hirom]; simp only [he, true_and]
      · rw [if_neg he, if_neg he, hirom, if_neg fun h => he h.1]
    · simp [hloaded', hentry, hloaded, hk]

theorem decodeIslot_setWidth {n : BitVec 5} (hn : n ≠ 0) : decodeIslot (n.setWidth 8) = .islot n := by
  have happend : n.setWidth 8 = 0#3 ++ n := by
    apply BitVec.eq_of_toNat_eq
    rw [append_toNat (m := 3), BitVec.toNat_setWidth]
    simp; omega
  rw [happend, decodeIslot_append hn]

/-- A slot byte and its record (R135, R137). -/
theorem loadRun_instrument {n : BitVec 5} {r : Vector Byte 11} (hload : s.engine = .load .islot)
    (heos : s.eos = false) (hn : n ≠ 0) (hrom : RomHolds s s.pos (n.setWidth 8 :: r.toList)) :
    ∃ t, LoadRun 12 s t ∧ t.pos = s.pos + 12 ∧ t.engine = .load .islot ∧
      t.song = { s.song with irom := t.song.irom, iloaded := t.song.iloaded } ∧
      ∀ e : Fin 31,
        t.song.irom[e] = (if e.val + 1 = n.toNat then r else s.song.irom[e]) ∧
        t.song.iloaded[e] = (if e.val + 1 = n.toNat then true else s.song.iloaded[e]) := by
  have hstep := step_byteToken hload rfl rfl decode_islot rfl heos hrom
  rw [decodeIslot_setWidth hn] at hstep
  have hselect := LoadRun.of_step (hstep.trans (execIslot_of_ne_zero hn _)) rfl
  obtain ⟨b, bytes, hbytes⟩ : ∃ b bytes, r.toList = b :: bytes := List.exists_cons_of_length_pos (by simp)
  have hlen : bytes.length = 10 := by simpa [hbytes] using r.length_toList
  have hrest := hselect.romHolds hrom.tail
  rw [hbytes] at hrest
  obtain ⟨t, hrun, hpos, hengine, hsong, hirom, hloaded⟩ := loadRun_record rfl (hselect.eos_eq.trans heos)
    (by rw [hlen]; rfl) hrest
  rw [hlen] at hrun hpos
  refine ⟨t, hselect.trans hrun, hpos, hengine, hsong, fun e => ?_⟩
  have he : e = entryOf n hn ↔ e.val + 1 = n.toNat := by
    rw [← entryOf_val n hn, Fin.ext_iff, Nat.add_right_cancel_iff]
  simp only [← he]
  refine ⟨Vector.ext fun k hk => ?_, hloaded e⟩
  have hbyte := hirom e ⟨k, hk⟩
  rw [← hbytes] at hbyte
  by_cases h : e = entryOf n hn
  · rw [if_pos h]
    exact (hbyte.trans (if_pos h)).trans ((overwrite_zero _ _ _).trans (by simp [hk]))
  · rw [if_neg h]
    exact hbyte.trans (if_neg h)

/-- One order entry: it goes to ORDLIST[i], and the last one ends the list (R138). -/
theorem loadRun_oent (hload : s.engine = .load .oent) (heos : s.eos = false) (hrom : RomHolds s s.pos (b :: bytes)) :
    ∃ t, LoadRun 1 s t ∧ t.pos = s.pos + 1 ∧
      t.engine = .load (if s.vars.orderNo.val + 1 < s.song.songlen.toNat then .oent else .pofs) ∧
      t.song = { s.song with ordlist := t.song.ordlist } ∧
      (∀ i : Fin 255, t.song.ordlist[i] = if i = s.vars.orderNo then b else s.song.ordlist[i]) ∧
      (s.vars.orderNo.val + 1 < s.song.songlen.toNat → t.vars.orderNo.val = s.vars.orderNo.val + 1) ∧
      (s.song.songlen.toNat ≤ s.vars.orderNo.val + 1 → t.vars.slot = 0) := by
  obtain ⟨-, htoken⟩ := orderTokensFillOrderList (seek (s.pos + 1) s)
  obtain ⟨t, hexec, ht, hentry, hnext, hlast⟩ := htoken b
  have hstep := (step_byteToken hload rfl rfl decode_oent rfl heos hrom).trans hexec
  exact ⟨t, .of_step hstep (by rw [ht]; rfl), congrArg State.pos ht, congrArg State.engine ht,
    congrArg State.song ht, hentry, hnext, hlast⟩

/-- The order entries still to come (R138). -/
theorem loadRun_entries (hload : s.engine = .load .oent) (heos : s.eos = false)
    (hlast : s.vars.orderNo.val + (bytes.length + 1) = s.song.songlen.toNat) (hrom : RomHolds s s.pos (b :: bytes)) :
    ∃ t, LoadRun (bytes.length + 1) s t ∧ t.pos = s.pos + (bytes.length + 1) ∧ t.engine = .load .pofs ∧
      t.vars.slot = 0 ∧ t.song = { s.song with ordlist := t.song.ordlist } ∧
      ∀ i : Fin 255, t.song.ordlist[i] =
        overwrite (fun i => s.song.ordlist[i]) s.vars.orderNo.val (b :: bytes) i := by
  induction bytes generalizing s b with
  | nil =>
    obtain ⟨t, hst, hpos, hengine, hsong, hentry, -, hend⟩ := loadRun_oent hload heos hrom
    have hdone : s.song.songlen.toNat ≤ s.vars.orderNo.val + 1 := hlast.ge
    rw [if_neg hdone.not_gt] at hengine
    exact ⟨t, hst, hpos, hengine, hend hdone, hsong, fun i => by
      rw [← overwrite_cons (new := fun i => t.song.ordlist[i]) hentry, overwrite_nil]⟩
  | cons b' bytes ih =>
    obtain ⟨t, hst, hpos, hengine, hsong, hentry, hmore, -⟩ := loadRun_oent hload heos hrom
    have hgoOn : s.vars.orderNo.val + 1 < s.song.songlen.toNat := by
      rw [← hlast, List.length_cons]; omega
    rw [if_pos hgoOn] at hengine
    obtain ⟨u, htu, hpos', hengine', hslot, hsong', hentries⟩ :=
      ih hengine (hst.eos_eq.trans heos)
        (by rw [hmore hgoOn, hsong, ← hlast, List.length_cons]; omega)
        (hpos ▸ hst.romHolds hrom.tail)
    refine ⟨u, Nat.add_comm 1 _ ▸ hst.trans htu, by rw [hpos', hpos, List.length_cons]; omega, hengine', hslot,
      by rw [hsong', hsong], fun i => ?_⟩
    rw [hentries, hmore hgoOn]
    exact overwrite_cons hentry _ _

/-- A length byte and the entries it announces (R138). -/
theorem loadRun_orders {entries : List Byte} (hload : s.engine = .load .olen) (heos : s.eos = false)
    (hlen : entries.length ≤ 255) (hrom : RomHolds s s.pos (BitVec.ofNat 8 entries.length :: entries)) :
    ∃ t, LoadRun (entries.length + 1) s t ∧ t.pos = s.pos + entries.length + 1 ∧ t.engine = .load .pofs ∧
      t.vars.slot = 0 ∧
      t.song = { s.song with songlen := BitVec.ofNat 8 entries.length, ordlist := t.song.ordlist } ∧
      ∀ i : Fin 255, t.song.ordlist[i] = entries.getD i.val s.song.ordlist[i] := by
  obtain ⟨htoken, -⟩ := orderTokensFillOrderList (seek (s.pos + 1) s)
  obtain ⟨t, hexec, ht, horder, hslot⟩ := htoken (BitVec.ofNat 8 entries.length)
  have hst : LoadRun 1 s t :=
    .of_step ((step_byteToken hload rfl rfl decode_olen rfl heos hrom).trans hexec) (by rw [ht]; rfl)
  have hpos : t.pos = s.pos + 1 := congrArg State.pos ht
  have hengine := congrArg State.engine ht
  have hsong : t.song = { s.song with songlen := BitVec.ofNat 8 entries.length } := congrArg State.song ht
  have hval : (BitVec.ofNat 8 entries.length).toNat = entries.length := by
    rw [BitVec.toNat_ofNat]; omega
  cases entries with
  | nil =>
    exact ⟨t, hst, hpos, hengine, hslot rfl, by rw [hsong], fun i => by rw [hsong]; rfl⟩
  | cons b bytes =>
    have hne : BitVec.ofNat 8 (b :: bytes).length ≠ 0 := fun h => by
      rw [h] at hval; cases hval
    obtain ⟨u, htu, hpos', hengine', hslot', hsong', hentries⟩ :=
      loadRun_entries (hengine.trans (by rw [if_neg hne])) (hst.eos_eq.trans heos)
        (by rw [horder, hsong, hval]; simp) (hpos ▸ hst.romHolds hrom.tail)
    refine ⟨u, Nat.add_comm 1 _ ▸ hst.trans htu, by rw [hpos', hpos, List.length_cons]; omega, hengine', hslot',
      by rw [hsong', hsong], fun i => ?_⟩
    rw [hentries, horder, hsong]
    exact overwrite_zero ..

/-- The bytes of an offset word, low byte first (R65). -/
abbrev wordBytes (w : Half) : List Byte := [BitVec.ofNat 8 (w.toNat % 256), BitVec.ofNat 8 (w.toNat / 256)]

theorem append_wordBytes (w : Half) :
    (BitVec.ofNat 8 (w.toNat / 256) ++ BitVec.ofNat 8 (w.toNat % 256) : Half) = w := by
  apply BitVec.eq_of_toNat_eq
  rw [byte_append_toNat, BitVec.toNat_ofNat, BitVec.toNat_ofNat]
  omega

/-- One offset word: it goes to POFS[s], and word 31 ends the table (R139). -/
theorem loadRun_pofs {w : Half} (hload : s.engine = .load .pofs) (heos : s.eos = false)
    (hrom : RomHolds s s.pos (wordBytes w ++ bytes)) :
    ∃ t, LoadRun 1 s t ∧ t.pos = s.pos + 2 ∧ t.engine = .load (if s.vars.slot = 31 then .slot else .pofs) ∧
      t.vars = { s.vars with slot := t.vars.slot } ∧ t.vars.slot.val = (s.vars.slot.val + 1) % 32 ∧
      t.song = { s.song with pofs := t.song.pofs } ∧
      ∀ k : Fin 32, t.song.pofs[k] = if k = s.vars.slot then w else s.song.pofs[k] := by
  obtain ⟨_, hlo⟩ := hrom.head
  obtain ⟨hpos, hhi⟩ := hrom.tail.head
  have hdec : decode ⟨.pofs, imageWord s .pofs⟩ = .instr (decodePofs w) := by
    rw [imageWord_pofs, decode_pofs, hlo, hhi, append_wordBytes]
  obtain ⟨t, hexec, ht, hslot, hword⟩ := offsetTokensFillOffsetTable (seek (s.pos + 2) s) w _ (.inl rfl)
  have hstep := (step_token (f := .pofs) hload rfl heos hpos hdec).trans hexec
  exact ⟨t, .of_step hstep (by rw [ht]; rfl), congrArg State.pos ht, congrArg State.engine ht,
    congrArg State.vars ht, hslot, congrArg State.song ht, hword⟩

/-- The offset words still to come, the last of them word 31 (R139). -/
theorem loadRun_words {w : Half} {ws : List Half} (hload : s.engine = .load .pofs) (heos : s.eos = false)
    (hlast : s.vars.slot.val + ws.length = 31) (hrom : RomHolds s s.pos ((w :: ws).flatMap wordBytes)) :
    ∃ t, LoadRun (ws.length + 1) s t ∧ t.pos = s.pos + 2 * (ws.length + 1) ∧ t.engine = .load .slot ∧
      t.vars = { s.vars with slot := 0 } ∧ t.song = { s.song with pofs := t.song.pofs } ∧
      ∀ k : Fin 32, t.song.pofs[k] = overwrite (fun k => s.song.pofs[k]) s.vars.slot.val (w :: ws) k := by
  induction ws generalizing s w with
  | nil =>
    obtain ⟨t, hst, hpos, hengine, hvars, hslot, hsong, hword⟩ := loadRun_pofs hload heos hrom
    have hk : s.vars.slot = 31 := Fin.ext hlast
    have hzero : t.vars.slot = 0 := Fin.ext (by rw [hslot, hk]; rfl)
    rw [hzero] at hvars
    exact ⟨t, hst, hpos, by rw [hengine, if_pos hk], hvars, hsong, fun k => by
      rw [← overwrite_cons (new := fun k => t.song.pofs[k]) hword, overwrite_nil]⟩
  | cons w' ws ih =>
    obtain ⟨t, hst, hpos, hengine, hvars, hslot, hsong, hword⟩ := loadRun_pofs hload heos hrom
    rw [List.length_cons] at hlast
    have hk : s.vars.slot ≠ 31 := fun h => by rw [h] at hlast; simp at hlast
    have hnext : t.vars.slot.val = s.vars.slot.val + 1 := by rw [hslot]; omega
    rw [if_neg hk] at hengine
    obtain ⟨u, htu, hpos', hengine', hvars', hsong', hwords⟩ :=
      ih hengine (hst.eos_eq.trans heos) (by rw [hnext]; omega) (hpos ▸ hst.romHolds hrom.tail.tail)
    refine ⟨u, Nat.add_comm 1 _ ▸ hst.trans htu, by rw [hpos', hpos, List.length_cons]; omega, hengine',
      by rw [hvars', hvars], by rw [hsong', hsong], fun k => ?_⟩
    rw [hwords, hnext]
    exact overwrite_cons hword _ _

/-- The whole offset table (R139). -/
theorem loadRun_offsets {words : Vector Half 32} (hload : s.engine = .load .pofs) (heos : s.eos = false)
    (hslot : s.vars.slot = 0) (hrom : RomHolds s s.pos (words.toList.flatMap wordBytes)) :
    LoadRun 32 s { s with song := { s.song with pofs := words }, pos := s.pos + 64, engine := .load .slot } := by
  obtain ⟨w, ws, hwords⟩ : ∃ w ws, words.toList = w :: ws := List.exists_cons_of_length_pos (by simp)
  have hlen : ws.length = 31 := by simpa [hwords] using words.length_toList
  rw [hwords] at hrom
  obtain ⟨t, hrun, hpos, hengine, hvars, hsong, hpofs⟩ :=
    loadRun_words hload heos (by rw [hslot, hlen]; rfl) hrom
  have htable : t.song.pofs = words := Vector.ext fun k hk => by
    have hword := hpofs ⟨k, hk⟩
    rw [hslot, ← hwords] at hword
    exact hword.trans ((overwrite_zero _ _ _).trans (by simp [hk]))
  have hframe := hrun.frame
  rw [hlen] at hrun hpos
  rw [hvars, ← hslot, hpos, hengine, hsong, htable] at hframe
  exact hframe ▸ hrun

end TokenRuns

/-- Settles O24: each nonzero byte is skipped, and the zero byte ends the block. -/
theorem descriptionBlockIsSkipped : Obligations.DescriptionBlockIsSkipped :=
  fun _ _ => run_description

/-- Settles O25: the slot byte selects the entry, and the eleven bytes fill it from its first byte on. -/
theorem instrumentRecordIsStored : Obligations.InstrumentRecordIsStored := by
  intro s n r hload heos hn hrom
  obtain ⟨t, hrun, hpos, hengine, hsong, hfacts⟩ := loadRun_instrument hload heos hn hrom
  refine ⟨t, hrun.run, hrun.frame.trans ?_, hfacts⟩
  rw [hpos, hengine.trans hload.symm, ← hsong]

/-- Settles O26: the length byte, and the entries from index 0 on. -/
theorem orderListIsStored : Obligations.OrderListIsStored := by
  intro s entries hload heos hlen hrom
  obtain ⟨t, hrun, hpos, hengine, hslot, hsong, hfacts⟩ := loadRun_orders hload heos hlen hrom
  refine ⟨t, hrun.run, hrun.frame.trans ?_, hslot, hfacts⟩
  rw [hpos, hengine, ← hsong]

/-- Settles O27: 32 words from slot 0 on replace the whole table. -/
theorem offsetTableIsStored : Obligations.OffsetTableIsStored :=
  fun _ _ hload heos hslot hrom => (loadRun_offsets hload heos hslot hrom).run

end Sys2Proof.Machine

/-! ## A LOAD ends (spec/40_load.md R156) -/

namespace Sys2Proof.Machine

/-- A bound on the steps a LOAD still takes from a phase: a pass over the image reads a byte a step, and each slot not
yet walked may take one more pass (R156). -/
def Phase.stepsLeft (p : Phase) (s : State) : Nat :=
  match p with
  | .hdr | .desc | .islot | .irec | .olen | .oent | .pofs => 32 * (s.romLen + 1) + (s.romLen - s.pos) + 2
  | .slot => (32 - s.vars.slot.val) * (s.romLen + 1) + 1
  | .line | .chan | .note | .param => (31 - s.vars.slot.val) * (s.romLen + 1) + (s.romLen - s.pos) + 2
  | .validate => 1

theorem Phase.stepsLeft_pos (p : Phase) (s : State) : 0 < p.stepsLeft s := by
  cases p <;> simp [Phase.stepsLeft]

/-- The same bound at the phase the LOAD has come to; a LOAD that has ended takes no step. -/
def State.loadStepsLeft (s : State) : Nat :=
  match s.engine with
  | .load p => p.stepsLeft s
  | .idle | .cells _ | .tickEnd | .emit _ => 0

/-- The operation answers a next state with at most `n` steps of the LOAD left. -/
def GoesOnWithin (n : Nat) (o : Result) : Prop := ∃ t, o = .next t ∧ t.loadStepsLeft ≤ n

section StepsLeft

variable {s s₀ u : State} {p : Phase}

theorem GoesOnWithin.raiseFault (n : Nat) (e : ErrCode) (s : State) : GoesOnWithin n (raiseFault e s) :=
  ⟨_, rfl, Nat.zero_le _⟩

theorem nextSlot_stepsLeft (s : State) :
    (nextSlot s).loadStepsLeft ≤ (31 - s.vars.slot.val) * (s.romLen + 1) + 1 := by
  unfold nextSlot
  split
  · simp [State.loadStepsLeft, Phase.stepsLeft, Nat.add_comm]
  · simp [State.loadStepsLeft, Phase.stepsLeft]

theorem endCell_stepsLeft (s : State) : (endCell s).loadStepsLeft ≤ Phase.param.stepsLeft s := by
  unfold endCell
  split_ifs
  · exact (nextSlot_stepsLeft s).trans (by simp only [Phase.stepsLeft]; omega)
  · exact le_rfl
  · exact le_rfl

theorem storeOffset_stepsLeft (w : Half) (s : State) : (storeOffset w s).loadStepsLeft ≤ Phase.pofs.stepsLeft s := by
  unfold storeOffset
  dsimp only
  split
  · exact le_rfl
  · simp only [State.loadStepsLeft, Phase.stepsLeft, Fin.val_zero]; omega

theorem exec_decodeIslot_goesOn (b : Byte) (u : State) :
    GoesOnWithin (Phase.islot.stepsLeft u) (exec (decodeIslot b) u) := by
  unfold decodeIslot
  split_ifs
  · exact ⟨_, rfl, le_rfl⟩
  · change GoesOnWithin _ (execIslot _ u)
    unfold execIslot
    split <;> exact ⟨_, rfl, le_rfl⟩
  · exact .raiseFault ..

theorem execIrecByte_goesOn (b : Byte) (u : State) : GoesOnWithin (Phase.irec.stepsLeft u) (execIrecByte b u) := by
  unfold execIrecByte
  dsimp only
  split <;> exact ⟨_, rfl, le_rfl⟩

theorem execOlen_goesOn (l : Byte) (u : State) : GoesOnWithin (Phase.olen.stepsLeft u) (execOlen l u) := by
  unfold execOlen
  dsimp only
  split <;> exact ⟨_, rfl, le_rfl⟩

theorem execOent_goesOn (e : Byte) (u : State) : GoesOnWithin (Phase.oent.stepsLeft u) (execOent e u) := by
  unfold execOent
  dsimp only
  split <;> exact ⟨_, rfl, le_rfl⟩

/-- Every token of a LOAD has a next state, with no more steps left than the pass it is read in. -/
theorem fetchedToken_goesOn {i : Instr} (hf : loadFetch s p = .instr i u) :
    GoesOnWithin (p.stepsLeft u) (exec i u) := by
  cases p with
  | hdr =>
    cases hf
    refine ⟨_, rfl, ?_⟩
    split <;> exact le_rfl
  | desc =>
    obtain ⟨b, rfl⟩ := byteToken_eq_instr hf
    unfold decodeDesc
    split <;> exact ⟨_, rfl, le_rfl⟩
  | islot => obtain ⟨b, rfl⟩ := byteToken_eq_instr hf; exact exec_decodeIslot_goesOn b u
  | irec => obtain ⟨b, rfl⟩ := byteToken_eq_instr hf; exact execIrecByte_goesOn b u
  | olen => obtain ⟨l, rfl⟩ := byteToken_eq_instr hf; exact execOlen_goesOn l u
  | oent => obtain ⟨e, rfl⟩ := byteToken_eq_instr hf; exact execOent_goesOn e u
  | pofs =>
    obtain ⟨w, rfl⟩ := wordToken_eq_instr hf
    exact ⟨_, exec_decodePofs w u, storeOffset_stepsLeft w u⟩
  | slot => cases hf
  | line =>
    obtain ⟨b, rfl⟩ := byteToken_eq_instr hf
    unfold decodeLine
    split <;> exact ⟨_, rfl, le_rfl⟩
  | chan => obtain ⟨b, rfl⟩ := byteToken_eq_instr hf; exact ⟨_, exec_decodeChan b u, le_rfl⟩
  | note =>
    obtain ⟨n, rfl⟩ := noteToken_eq_instr hf
    unfold decodeNote
    split
    · exact ⟨_, rfl, endCell_stepsLeft _⟩
    · exact ⟨_, rfl, le_rfl⟩
  | param => obtain ⟨b, rfl⟩ := byteToken_eq_instr hf; exact ⟨_, rfl, endCell_stepsLeft _⟩
  | validate => cases hf

theorem readByte_pos_le (s : State) : s.pos ≤ (readByte s).2.pos := by
  unfold readByte
  split <;> simp

theorem readByte_pos_lt (h : (readByte s).2.eos = false) : s.pos < (readByte s).2.pos := by
  unfold readByte at h ⊢
  split
  · exact Nat.lt_succ_self _
  · next hpast => simp [hpast] at h

theorem byteToken_pos_lt {d : Byte → Instr} {i : Instr} (h : byteToken d s = .instr i u) : s.pos < u.pos := by
  have heos := checkEos_eos h
  cases checkEos_eq_instr h
  exact readByte_pos_lt heos

theorem wordToken_pos_lt {d : Half → Instr} {i : Instr} (h : wordToken d s = .instr i u) : s.pos < u.pos := by
  have heos := checkEos_eos h
  cases checkEos_eq_instr h
  exact (readByte_pos_le s).trans_lt (readByte_pos_lt heos)

theorem noteToken_pos_lt {i : Instr} (h : noteToken s = .instr i u) : s.pos < u.pos := by
  unfold noteToken at h
  have hlast := checkEos_eq_instr h
  have heos := checkEos_eos hlast
  cases checkEos_eq_instr hlast
  exact (readByte_pos_le s).trans_lt (readByte_pos_lt heos)

/-- Every token fetched takes a byte; the header's does when its byte is in the image (R133). -/
theorem loadFetch_pos_lt {i : Instr} (h : loadFetch s p = .instr i u) (hhdr : p = .hdr → s.pos < s.romLen) :
    s.pos < u.pos := by
  cases p with
  | hdr => cases h; rw [readByte_inside (hhdr rfl)]; exact Nat.lt_succ_self _
  | desc | islot | irec | olen | oent | line | chan | param => exact byteToken_pos_lt h
  | pofs => exact wordToken_pos_lt h
  | note => exact noteToken_pos_lt h
  | slot | validate => cases h

/-- A token read further on in the same pass has fewer steps left. -/
theorem stepsLeft_lt_of_pos_lt {i : Instr} (hf : loadFetch s p = .instr i u) (hu : ReaderMoves s u)
    (hpos : s.pos < u.pos) (hin : u.pos ≤ u.romLen) : p.stepsLeft u < p.stepsLeft s := by
  obtain ⟨hu, -⟩ := hu
  have hlen : u.romLen = s.romLen := by rw [hu]
  have hvars : u.vars = s.vars := by rw [hu]
  cases p with
  | slot | validate => cases hf
  | _ => simp only [Phase.stepsLeft, hlen, hvars]; omega

theorem slotStep_goesOn (s : State) : ∃ t, slotStep s = .next t ∧ t.loadStepsLeft < Phase.slot.stepsLeft s := by
  have hslot : 32 - s.vars.slot.val = 31 - s.vars.slot.val + 1 := by omega
  simp only [Phase.stepsLeft, hslot, Nat.add_mul, Nat.one_mul]
  by_cases hunused : s.song.pofs[s.vars.slot] = 0
  · exact ⟨_, slotStep_unused hunused, (nextSlot_stepsLeft s).trans_lt (by omega)⟩
  · have hofs : 0 < s.song.pofs[s.vars.slot].toNat := Nat.pos_of_ne_zero fun h => hunused (BitVec.eq_of_toNat_eq h)
    obtain hin | hpast := Nat.lt_or_ge s.song.pofs[s.vars.slot].toNat s.romLen
    · refine ⟨_, slotStep_inside hunused hin, ?_⟩
      simp only [State.loadStepsLeft, Phase.stepsLeft, seek_vars, seek_romLen, seek_pos]
      omega
    · exact ⟨_, slotStep_past hunused hpast, by simp [State.loadStepsLeft]⟩

theorem validateStep_goesOn (s : State) : ∃ t, validateStep s = .next t ∧ t.loadStepsLeft = 0 := by
  by_cases h : s.song.Refused
  · exact ⟨_, validateStep_refuses h, rfl⟩
  · exact ⟨_, validateStep_commits h, rfl⟩

/-- Every step of a running LOAD has a next state, with fewer steps left. -/
theorem LoadRunning.innerStep_goesOn (hs : LoadRunning s₀ s) :
    ∃ t, innerStep s = .next t ∧ t.loadStepsLeft < s.loadStepsLeft := by
  obtain ⟨p, hp, ⟨-, hin⟩, heos, hhdr, -⟩ := hs
  have hleft : s.loadStepsLeft = p.stepsLeft s := by simp only [State.loadStepsLeft, hp]
  rw [← step_eq_innerStep (by simp [hp]), hleft]
  simp only [step, fetch, hp]
  cases hf : loadFetch s p with
  | instr i u =>
    obtain ⟨hu, -⟩ := loadFetch_readerMoves hf heos hhdr
    have hlt := stepsLeft_lt_of_pos_lt hf hu (loadFetch_pos_lt hf hhdr) (hu.2 hin)
    obtain ⟨t, ht, hle⟩ := fetchedToken_goesOn hf
    exact ⟨t, ht, hle.trans_lt hlt⟩
  | settled o =>
    obtain ⟨rfl, rfl⟩ | ⟨rfl, rfl⟩ | ⟨u, -, -, rfl⟩ := loadFetch_settled hf
    · exact slotStep_goesOn s
    · obtain ⟨t, ht, hzero⟩ := validateStep_goesOn s
      exact ⟨t, ht, by rw [hzero]; exact Nat.one_pos⟩
    · exact ⟨_, rfl, p.stepsLeft_pos s⟩

theorem LoadReaches.runRequest_ends {fuel : Nat} (hs : LoadReaches s₀ s) (hfuel : s.loadStepsLeft < fuel) :
    ∃ t, runRequest fuel s = .next t := by
  induction fuel generalizing s with
  | zero => exact absurd hfuel (Nat.not_lt_zero _)
  | succ fuel ih =>
    by_cases hidle : s.engine = .idle
    · exact ⟨s, runRequest_idle hidle⟩
    · obtain hrun | ⟨e, u, _, _, rfl⟩ | ⟨u, _, _, _, _, rfl⟩ := id hs
      · obtain ⟨t, ht, hlt⟩ := hrun.innerStep_goesOn
        rw [runRequest_step hidle, ht]
        exact ih (hs.innerStep_reaches hidle ht) (by omega)
      · exact absurd rfl hidle
      · exact absurd rfl hidle

theorem execLoad_ends (s : State) : ∃ t, execLoad s = .next t := by
  unfold execLoad
  split_ifs with hlen
  · exact ⟨_, rfl⟩
  · refine LoadReaches.runRequest_ends (s₀ := s) (.inl (loadStart_running (Nat.not_lt.1 hlen))) ?_
    change 32 * (s.romLen + 1) + (s.romLen - 0x11) + 2 < 33 * (s.romLen + 4)
    omega

end StepsLeft

/-- Settles O29: each step of a LOAD leaves fewer steps, and it ends failed or committed. -/
theorem loadAlwaysCompletes : Obligations.LoadAlwaysCompletes := by
  intro s
  obtain ⟨t, h⟩ := execLoad_ends s
  refine ⟨t, h, ?_⟩
  obtain ⟨e, u, hu, _, rfl⟩ | ⟨u, hu, _, _, _, rfl⟩ := execLoad_cases h
  · exact ⟨⟨rfl, rfl, rfl, rfl⟩, ⟨_, rfl, rfl, .inr rfl⟩, hu.keeps⟩
  · exact ⟨⟨rfl, rfl, rfl, rfl⟩, ⟨_, rfl, rfl, .inl rfl⟩, hu.keeps⟩

end Sys2Proof.Machine

/-! ## A LOAD as a run of its steps (spec/40_load.md R130, R132) -/

namespace Sys2Proof.Machine

section LoadRuns

variable {s s₀ t : State}

/-- A step between requests ends between requests (log 2). -/
theorem step_idle_engine (hidle : s.engine = .idle) (h : step s = .next t) : t.engine = .idle := by
  obtain rfl | ⟨bytes, rest, himage⟩ | ⟨rest, hreq⟩ := step_idle_cases hidle h
  · exact hidle
  · obtain ⟨-, rfl⟩ := placeImage_eq_next himage
    exact hidle
  · cases hreq with
    | reset h => rw [h]; rfl
    | loadFailed h => obtain ⟨_, _, _, _, rfl⟩ := h; rfl
    | loadCommitted h => obtain ⟨_, _, _, _, _, rfl⟩ := h; rfl
    | tick _ h => rw [h.frame]
    | answer h => rw [h]; exact hidle

theorem run_idle_engine {n : Nat} (hidle : s.engine = .idle) (h : Host.Core.run core n s = .next t) :
    t.engine = .idle := by
  induction n generalizing s with
  | zero => cases h; exact hidle
  | succ n ih =>
    rw [run_succ] at h
    obtain ⟨u, hu, h⟩ := andThen_eq_next.1 h
    exact ih (step_idle_engine hidle hu) h

/-- A run of steps that ends inside the request is the first part of the request. -/
theorem runRequest_add {m n : Nat} (h : Host.Core.run core m s = .next t) (ht : t.engine ≠ .idle) :
    runRequest (m + n) s = runRequest n t := by
  induction m generalizing s with
  | zero => cases h; rw [Nat.zero_add]
  | succ m ih =>
    have hrun : s.engine ≠ .idle := fun hidle => ht (run_idle_engine hidle h)
    rw [run_succ] at h
    obtain ⟨u, hu, h⟩ := andThen_eq_next.1 h
    rw [Nat.add_right_comm, runRequest_step hrun, ← step_eq_innerStep hrun, hu]
    exact ih h

/-- A LOAD whose steps come to `t` and end there at `u`, within its bound, answers `u`. -/
theorem execLoad_of_run {n : Nat} {u : State} (hlen : 18 ≤ s.romLen)
    (h : Host.Core.run core n (loadStart s) = .next t) (ht : t.engine ≠ .idle) (hstep : step t = .next u)
    (hu : u.engine = .idle) (hfuel : n + 2 ≤ loadFuel s) : execLoad s = .next u := by
  obtain ⟨k, hk⟩ := Nat.exists_eq_add_of_le hfuel
  rw [execLoad, if_neg hlen.not_gt, hk, Nat.add_assoc, runRequest_add h ht, Nat.add_comm 2, runRequest_step ht,
    ← step_eq_innerStep ht, hstep]
  exact runRequest_idle hu

/-- The header byte (R133), read at 0x11. -/
theorem step_loadStart {b : Byte} (hlen : 18 ≤ s.romLen) (hb : Memory.read s.rom 0x11 = b) :
    step (loadStart s) = exec (decodeHdr b) (seek 0x12 (loadStart s)) := by
  have hin : (loadStart s).pos < (loadStart s).romLen := hlen
  have hfetch : fetch (loadStart s) = .instr (decodeHdr b) (seek 0x12 (loadStart s)) := by
    change loadFetch (loadStart s) .hdr = _
    rw [loadFetch, readByte_inside hin, ← hb]
    rfl
  simp only [step, hfetch]

/-- After the header byte a LOAD stands at 0x12, before the description block or the instrument table (R133). -/
theorem loadStart_goesOn (hlen : 18 ≤ s.romLen) :
    ∃ t p, step (loadStart s) = .next t ∧ t.engine = .load p ∧ (p = .desc ∨ p = .islot) ∧ t.pos = 0x12 ∧
      t.romLen = s.romLen := by
  obtain ⟨hexec, -⟩ := headerTokensKeepOnlySongFlags (seek 0x12 (loadStart s))
  refine ⟨_, _, (step_loadStart hlen rfl).trans (hexec _), rfl, ?_, rfl, rfl⟩
  split
  · exact .inl rfl
  · exact .inr rfl

end LoadRuns

/-- Settles O34: a short image is refused at once; one of 18 bytes holds the header byte and no token after it. -/
theorem shortImageIsMalformed : Obligations.ShortImageIsMalformed := by
  refine fun s => ⟨fun hlen => ⟨_, if_pos hlen, rfl, rfl, rfl⟩, fun hlen => ?_⟩
  obtain ⟨t, p, hhdr, hp, hphase, hpos, hromLen⟩ := loadStart_goesOn hlen.ge
  have htoken : ∃ f, p.format = some f ∧ p ≠ .hdr ∧ tokenLength f = 1 := by
    obtain rfl | rfl := hphase <;> exact ⟨_, rfl, nofun, rfl⟩
  obtain ⟨f, hf, hne, hone⟩ := htoken
  obtain ⟨u, -, heos, hstep⟩ := step_truncated hp hf hne (by omega)
  have hfuel : 1 + 2 ≤ loadFuel s := by unfold loadFuel; omega
  exact ⟨_, execLoad_of_run hlen.ge (run_step hhdr 0) (by simp [hp]) hstep rfl hfuel, rfl, heos, rfl⟩

/-! ## What a LOAD leaves depends on the ROM alone (spec/40_load.md R131, R157) -/

/-- The state with what LOAD does not write before its end taken from another state. -/
abbrev State.withRest (s₀ s : State) : State :=
  { s with
    loop := s₀.loop, seq := s₀.seq, err := s₀.err, rowBoundary := s₀.rowBoundary, orderBoundary := s₀.orderBoundary,
    order := s₀.order, row := s₀.row, tickcnt := s₀.tickcnt, curpat := s₀.curpat, host := s₀.host,
    response := s₀.response }

/-- The same once the LOAD may have ended: then only CTRL and the host's actions are the other state's. -/
def State.carriedTo (s₀ s : State) : State :=
  match s.engine with
  | .idle => { s with loop := s₀.loop, host := s₀.host }
  | .load _ | .cells _ | .tickEnd | .emit _ => s₀.withRest s

/-- What LOAD fetches, with the rest of the state taken from another one. -/
def Fetched.carriedTo (s₀ : State) : Fetched → Fetched
  | .instr i u => .instr i (s₀.withRest u)
  | .settled o => .settled (mapNext s₀.carriedTo o)

/-- The operation does not read what LOAD does not write. -/
def IgnoresRest (f : State → Result) : Prop :=
  ∀ s₀ s : State, f (s₀.withRest s) = mapNext s₀.carriedTo (f s)

section RomOnly

variable {s s₀ t u : State} {p : Phase}

theorem carriedTo_idle (h : s.engine = .idle) : s₀.carriedTo s = { s with loop := s₀.loop, host := s₀.host } := by
  simp only [State.carriedTo, h]

theorem carriedTo_load (h : s.engine = .load p) : s₀.carriedTo s = s₀.withRest s := by
  simp only [State.carriedTo, h]

/-! ### The reader and the fetch -/

theorem readByte_withRest (s₀ s : State) :
    readByte (s₀.withRest s) = ((readByte s).1, s₀.withRest (readByte s).2) := by
  unfold readByte
  split <;> rfl

theorem readWord_withRest (s₀ s : State) :
    readWord (s₀.withRest s) = ((readWord s).1, s₀.withRest (readWord s).2) := by
  simp only [readWord, readByte_withRest]

theorem checkEos_withRest {k k' : State → Fetched} (hk : k' (s₀.withRest s) = (k s).carriedTo s₀) :
    checkEos (s₀.withRest s) k' = (checkEos s k).carriedTo s₀ := by
  unfold checkEos
  split
  · rfl
  · exact hk

theorem byteToken_withRest (d : Byte → Instr) (s₀ s : State) :
    byteToken d (s₀.withRest s) = (byteToken d s).carriedTo s₀ := by
  simp only [byteToken, readByte_withRest]
  exact checkEos_withRest rfl

theorem wordToken_withRest (d : Half → Instr) (s₀ s : State) :
    wordToken d (s₀.withRest s) = (wordToken d s).carriedTo s₀ := by
  simp only [wordToken, readWord_withRest]
  exact checkEos_withRest rfl

theorem noteToken_withRest (s₀ s : State) : noteToken (s₀.withRest s) = (noteToken s).carriedTo s₀ := by
  simp only [noteToken, readByte_withRest]
  refine checkEos_withRest ?_
  simp only [readByte_withRest]
  exact checkEos_withRest rfl

/-! ### The slot walk, the validation and the tokens -/

theorem nextSlot_withRest (s₀ s : State) : nextSlot (s₀.withRest s) = s₀.carriedTo (nextSlot s) := by
  unfold nextSlot
  split <;> rfl

theorem endCell_withRest (s₀ s : State) : endCell (s₀.withRest s) = s₀.carriedTo (endCell s) := by
  unfold endCell
  split_ifs
  · exact nextSlot_withRest s₀ s
  · rfl
  · rfl

theorem storeOffset_withRest (w : Half) (s₀ s : State) :
    storeOffset w (s₀.withRest s) = s₀.carriedTo (storeOffset w s) := by
  unfold storeOffset
  dsimp only
  split <;> rfl

theorem slotStep_ignoresRest : IgnoresRest slotStep := by
  intro s₀ s
  unfold slotStep
  dsimp only
  split_ifs
  · exact congrArg Host.Outcome.next (nextSlot_withRest s₀ s)
  · rfl
  · rfl

theorem validateStep_ignoresRest : IgnoresRest validateStep := by
  intro s₀ s
  unfold validateStep
  dsimp only
  split_ifs <;> rfl

theorem execIslot_ignoresRest (n : BitVec 5) : IgnoresRest (execIslot n) := by
  intro s₀ s
  unfold execIslot
  split <;> rfl

theorem execIrecByte_ignoresRest (b : Byte) : IgnoresRest (execIrecByte b) := by
  intro s₀ s
  unfold execIrecByte
  dsimp only
  split <;> rfl

theorem execOlen_ignoresRest (l : Byte) : IgnoresRest (execOlen l) := by
  intro s₀ s
  unfold execOlen
  dsimp only
  split <;> rfl

theorem execOent_ignoresRest (e : Byte) : IgnoresRest (execOent e) := by
  intro s₀ s
  unfold execOent
  dsimp only
  split <;> rfl

theorem endCell_storeCell_ignoresRest (inst : BitVec 5) (oct : BitVec 3) (note eff : BitVec 4) (param : Byte) :
    IgnoresRest fun s => .next (endCell (storeCell inst oct note eff param s)) :=
  fun s₀ s => congrArg Host.Outcome.next (endCell_withRest s₀ (storeCell inst oct note eff param s))

theorem loadFetch_withRest (s₀ s : State) (p : Phase) :
    loadFetch (s₀.withRest s) p = (loadFetch s p).carriedTo s₀ := by
  cases p with
  | hdr => simp only [loadFetch, readByte_withRest]; rfl
  | desc | islot | irec | olen | oent | line | chan | param => exact byteToken_withRest ..
  | pofs => exact wordToken_withRest ..
  | slot => exact congrArg Fetched.settled (slotStep_ignoresRest s₀ s)
  | note => exact noteToken_withRest s₀ s
  | validate => exact congrArg Fetched.settled (validateStep_ignoresRest s₀ s)

/-- No token of a LOAD reads what LOAD does not write. -/
theorem fetchedToken_withRest {i : Instr} (hf : loadFetch s p = .instr i u) :
    exec i (s₀.withRest u) = mapNext s₀.carriedTo (exec i u) := by
  cases p with
  | hdr => cases hf; rfl
  | desc =>
    obtain ⟨b, rfl⟩ := byteToken_eq_instr hf
    unfold decodeDesc
    split <;> rfl
  | islot =>
    obtain ⟨b, rfl⟩ := byteToken_eq_instr hf
    unfold decodeIslot
    split_ifs
    · rfl
    · exact execIslot_ignoresRest _ s₀ u
    · rfl
  | irec => obtain ⟨b, rfl⟩ := byteToken_eq_instr hf; exact execIrecByte_ignoresRest b s₀ u
  | olen => obtain ⟨l, rfl⟩ := byteToken_eq_instr hf; exact execOlen_ignoresRest l s₀ u
  | oent => obtain ⟨e, rfl⟩ := byteToken_eq_instr hf; exact execOent_ignoresRest e s₀ u
  | pofs =>
    obtain ⟨w, rfl⟩ := wordToken_eq_instr hf
    rw [exec_decodePofs, exec_decodePofs, storeOffset_withRest]
    rfl
  | slot => cases hf
  | line =>
    obtain ⟨b, rfl⟩ := byteToken_eq_instr hf
    unfold decodeLine
    split <;> rfl
  | chan =>
    obtain ⟨b, rfl⟩ := byteToken_eq_instr hf
    rw [exec_decodeChan, exec_decodeChan]
    rfl
  | note =>
    obtain ⟨n, rfl⟩ := noteToken_eq_instr hf
    unfold decodeNote
    split
    · exact endCell_storeCell_ignoresRest _ _ _ _ _ s₀ u
    · rfl
  | param =>
    obtain ⟨b, rfl⟩ := byteToken_eq_instr hf
    exact endCell_storeCell_ignoresRest _ _ _ _ _ s₀ u
  | validate => cases hf

theorem innerStep_carriedTo (hp : s.engine = .load p) :
    innerStep (s₀.carriedTo s) = mapNext s₀.carriedTo (innerStep s) := by
  have hrun : s.engine ≠ .idle := by simp [hp]
  rw [carriedTo_load hp, ← step_eq_innerStep hrun, ← step_eq_innerStep (s := s₀.withRest s) hrun]
  simp only [step, fetch, hp, loadFetch_withRest]
  cases hf : loadFetch s p with
  | instr i u => exact fetchedToken_withRest hf
  | settled o => rfl

/-- A LOAD stands inside the image's tokens, or has ended. -/
theorem LoadReaches.engine_cases (h : LoadReaches s₀ s) : s.engine = .idle ∨ ∃ p, s.engine = .load p := by
  obtain ⟨p, hp, -⟩ | ⟨_, _, _, _, rfl⟩ | ⟨_, _, _, _, _, rfl⟩ := h
  · exact .inr ⟨p, hp⟩
  · exact .inl rfl
  · exact .inl rfl

theorem carriedTo_engine (s₀ s : State) : (s₀.carriedTo s).engine = s.engine := by
  unfold State.carriedTo
  split <;> rfl

theorem LoadReaches.runRequest_carriedTo {s₁ s₂ : State} {fuel : Nat} (hs : LoadReaches s₁ s) :
    runRequest fuel (s₂.carriedTo s) = mapNext s₂.carriedTo (runRequest fuel s) := by
  induction fuel generalizing s with
  | zero => rfl
  | succ fuel ih =>
    have hengine := carriedTo_engine s₂ s
    obtain hidle | ⟨p, hp⟩ := hs.engine_cases
    · rw [runRequest_idle hidle, runRequest_idle (hengine.trans hidle)]
      rfl
    · have hrun : s.engine ≠ .idle := by simp [hp]
      rw [runRequest_step hrun, runRequest_step (hengine ▸ hrun), innerStep_carriedTo hp]
      cases hi : innerStep s with
      | next t => exact ih (hs.innerStep_reaches hrun hi)
      | fault r => rfl
      | refused r => rfl

/-- Where both LOADs begin there is one difference: what LOAD does not write. -/
theorem loadStart_withRest {s₁ s₂ : State} (hrom : s₁.rom = s₂.rom) (hlen : s₁.romLen = s₂.romLen) :
    loadStart s₂ = s₂.carriedTo (loadStart s₁) := by
  rw [carriedTo_load (p := .hdr) rfl]
  simp only [loadStart, initLoad, clearSong, seek, hrom, hlen]

end RomOnly

/-- Settles O36: step by step the two LOADs differ only in what LOAD does not write, and its end writes all of that but
CTRL and the host's actions. -/
theorem loadDependsOnlyOnRom : Obligations.LoadDependsOnlyOnRom := by
  intro s₁ s₂ hrom hlen
  change execLoad s₂ = mapNext _ (execLoad s₁)
  unfold execLoad
  rw [← hlen]
  split_ifs with hshort
  · simp only [initLoad, clearSong, raiseFault, faultEntry, hrom, hlen]
    rfl
  · have hruns := (LoadReaches.runRequest_carriedTo (s₁ := s₁) (s₂ := s₂) (fuel := loadFuel s₁)
      (.inl (loadStart_running (Nat.not_lt.1 hshort))))
    have hfuel : loadFuel s₂ = loadFuel s₁ := by rw [loadFuel, loadFuel, hlen]
    rw [hfuel, loadStart_withRest hrom hlen, hruns]
    cases h : runRequest (loadFuel s₁) (loadStart s₁) with
    | next t => exact congrArg Host.Outcome.next (carriedTo_idle (runRequest_ends h))
    | fault r => rfl
    | refused r => rfl

end Sys2Proof.Machine

/-! ## The walk over the pattern slots (spec/40_load.md R140 to R148) -/

namespace Sys2Proof.Machine

section PatternWalk

variable {s : State}

theorem loadRun_unusedSlot (hload : s.engine = .load .slot) (h : s.song.pofs[s.vars.slot] = 0) :
    LoadRun 1 s (nextSlot s) :=
  .of_step ((step_slot hload).trans (slotStep_unused h)) (by rw [nextSlot_frame])

/-- Unused slots are passed over, a step each (R140, R141). -/
theorem loadRun_unusedSlots {d : Nat} (hload : s.engine = .load .slot) (hd : s.vars.slot.val + d ≤ 31)
    (hunused : ∀ j : Fin 32, s.vars.slot ≤ j → j.val < s.vars.slot.val + d → s.song.pofs[j] = 0) :
    ∃ t, LoadRun d s t ∧ t.engine = .load .slot ∧ t.vars.slot.val = s.vars.slot.val + d ∧ t.song = s.song := by
  induction d with
  | zero => exact ⟨s, .refl s, hload, rfl, rfl⟩
  | succ d ih =>
    obtain ⟨t, hrun, hengine, hval, hsong⟩ := ih (by omega) fun j hlo hhi => hunused j hlo (by omega)
    have hne : t.vars.slot ≠ 31 := fun h => by rw [h] at hval; simp at hval; omega
    have hstep := loadRun_unusedSlot hengine (by rw [hsong]; exact hunused _ (Fin.le_def.2 (by omega)) (by omega))
    rw [nextSlot_of_ne hne] at hstep
    exact ⟨_, hrun.trans hstep, rfl, (slot_succ_val hne).trans (by omega), hsong⟩

/-- The rest of the slot walk, when no slot from here on is used (R140, R150). -/
theorem loadRun_walkToEnd (hload : s.engine = .load .slot)
    (hunused : ∀ j : Fin 32, s.vars.slot ≤ j → s.song.pofs[j] = 0) :
    ∃ n t, n ≤ 32 ∧ LoadRun n s t ∧ t.engine = .load .validate ∧ t.song = s.song := by
  obtain ⟨t, hrun, hengine, hval, hsong⟩ := loadRun_unusedSlots (d := 31 - s.vars.slot.val) hload (by omega)
    fun j hlo _ => hunused j hlo
  have hlast : t.vars.slot = 31 := Fin.ext (by simp; omega)
  have hstep := loadRun_unusedSlot hengine
    (by rw [hsong]; exact hunused _ (Fin.le_def.2 (by omega)))
  rw [nextSlot_of_last hlast] at hstep
  exact ⟨_, _, by omega, hrun.trans hstep, rfl, hsong⟩

theorem noteBytes_append (ihi : Bool) (oct : BitVec 3) (note ilo : BitVec 4) :
    (BitVec.ofNat 8 (128 * bit ihi + 16 * oct.toNat + note.toNat) ++ BitVec.ofNat 8 (16 * ilo.toNat) : Half) =
      noteWord ihi oct note ilo 0 := by
  have hihi := bit_le_one ihi
  apply BitVec.eq_of_toNat_eq
  simp only [noteWord, append_toNat, ofBool_toNat, BitVec.toNat_ofNat, BitVec.ofNat_eq_ofNat]
  omega

theorem loadRun_seek (hload : s.engine = .load .slot) (hne : s.song.pofs[s.vars.slot] ≠ 0)
    (hin : s.song.pofs[s.vars.slot].toNat < s.romLen) :
    LoadRun 1 s { seek s.song.pofs[s.vars.slot].toNat s with engine := .load .line } :=
  .of_step ((step_slot hload).trans (slotStep_inside hne hin)) rfl

variable {bytes : List Byte}

theorem loadRun_line {last ignored : Bool} {row : BitVec 6} (hload : s.engine = .load .line) (heos : s.eos = false)
    (hrom : RomHolds s s.pos (lineByte last ignored row :: bytes)) :
    LoadRun 1 s (startLine last row (seek (s.pos + 1) s)) := by
  refine .of_step ?_ rfl
  rw [step_byteToken hload rfl rfl decode_line rfl heos hrom, decodeLine_lineByte]
  cases last <;> rfl

theorem loadRun_chan {last : Bool} {ignored : BitVec 3} {ch : BitVec 4} (hload : s.engine = .load .chan)
    (heos : s.eos = false) (hrom : RomHolds s s.pos (chanByte last ignored ch :: bytes)) :
    LoadRun 1 s (startCell last ch (seek (s.pos + 1) s)) := by
  refine .of_step ?_ rfl
  rw [step_byteToken hload rfl rfl decode_chan rfl heos hrom, decodeChan_chanByte]
  cases last <;> rfl

theorem loadRun_noteNoparam {n0 n1 : Byte} {ihi : Bool} {oct : BitVec 3} {note ilo : BitVec 4}
    (hload : s.engine = .load .note) (heos : s.eos = false) (hrom : RomHolds s s.pos (n0 :: n1 :: bytes))
    (hword : n0 ++ n1 = noteWord ihi oct note ilo 0) :
    LoadRun 1 s (endCell (storeCell (instrumentNumber ihi ilo) oct note 0 0 (seek (s.pos + 2) s))) := by
  refine .of_step ?_ (by rw [endCell_frame]; rfl)
  rw [step_note hload heos hrom, hword, decodeNote_noteWord]
  rfl

variable {row : BitVec 6} {ch : BitVec 4} {ihi : Bool} {oct : BitVec 3} {note ilo : BitVec 4}

/-- The bytes of a pattern of one line and one cell without an effect. -/
abbrev oneCellBytes (row : BitVec 6) (ch : BitVec 4) (ihi : Bool) (oct : BitVec 3) (note ilo : BitVec 4) : List Byte :=
  [lineByte true false row, chanByte true 0 ch, BitVec.ofNat 8 (128 * bit ihi + 16 * oct.toNat + note.toNat),
    BitVec.ofNat 8 (16 * ilo.toNat)]

theorem loadRun_oneCellBytes (hload : s.engine = .load .line) (heos : s.eos = false)
    (hrom : RomHolds s s.pos (oneCellBytes row ch ihi oct note ilo)) :
    LoadRun 3 s (endCell (storeCell (instrumentNumber ihi ilo) oct note 0 0
      (seek (s.pos + 4) (startCell true ch (startLine true row s))))) := by
  have hline := loadRun_line hload heos hrom
  have hchan := loadRun_chan (s := startLine true row (seek (s.pos + 1) s)) rfl heos hrom.tail
  have hnote := loadRun_noteNoparam (s := startCell true ch (startLine true row (seek (s.pos + 2) s))) rfl heos
    hrom.tail.tail (noteBytes_append ihi oct note ilo)
  exact (hline.trans hchan).trans hnote

/-- At a slot whose pattern has one line and one cell: the cell is written and the walk goes on (R140 to R148). -/
theorem loadRun_oneCell (hload : s.engine = .load .slot) (heos : s.eos = false)
    (hne : s.song.pofs[s.vars.slot] ≠ 0)
    (hrom : RomHolds s s.song.pofs[s.vars.slot].toNat (oneCellBytes row ch ihi oct note ilo)) :
    ∃ t, LoadRun 4 s t ∧
      t.song = writeCell s.song s.vars.slot.val row.toNat (channelOf ch).val
        (cellWord (instrumentNumber ihi ilo) oct note 0 0) ∧
      t.engine = .load (if s.vars.slot = 31 then .validate else .slot) ∧
      (s.vars.slot ≠ 31 → t.vars.slot = s.vars.slot + 1) := by
  obtain ⟨hin, -⟩ := hrom.head
  have hseek := loadRun_seek hload hne hin
  generalize hu : ({ seek s.song.pofs[s.vars.slot].toNat s with engine := .load .line } : State) = u at hseek
  have hcell := loadRun_oneCellBytes (s := u) (by rw [← hu]) (hseek.eos_eq.trans heos) (by rw [← hu]; exact hrom)
  obtain ⟨hengine, hvars⟩ := endCell_goesOn (storeCell (instrumentNumber ihi ilo) oct note 0 0
    (seek (u.pos + 4) (startCell true ch (startLine true row u))))
  have hslot : u.vars.slot = s.vars.slot := by rw [← hu]; rfl
  have hsong : u.song = s.song := by rw [← hu]; rfl
  refine ⟨_, hseek.trans hcell, (endCell_keeps _).1.trans ?_, hengine.trans ?_, fun hlast => ?_⟩
  · rw [← hslot, ← hsong]; rfl
  · rw [← hslot]; rfl
  · rw [← hslot] at hlast ⊢
    exact (congrArg LoadVars.slot hvars).trans (congrArg LoadVars.slot (if_pos ⟨rfl, rfl, hlast⟩))

/-- The slot walk over a table that places one pattern (R140, R150). -/
theorem loadRun_onePattern {k : Fin 32} (hload : s.engine = .load .slot) (heos : s.eos = false)
    (hslot : s.vars.slot = 0) (hother : ∀ j, j ≠ k → s.song.pofs[j] = 0) (hne : s.song.pofs[k] ≠ 0)
    (hrom : RomHolds s s.song.pofs[k].toNat (oneCellBytes row ch ihi oct note ilo)) :
    ∃ n t, n ≤ 68 ∧ LoadRun n s t ∧ t.engine = .load .validate ∧
      t.song = writeCell s.song k.val row.toNat (channelOf ch).val
        (cellWord (instrumentNumber ihi ilo) oct note 0 0) := by
  obtain ⟨t, hst, hengine, hval, hsong⟩ := loadRun_unusedSlots (d := k.val) hload (by rw [hslot]; simp; omega)
    fun j _ hlt => hother j (Fin.ne_of_lt (by rw [hslot] at hlt; simpa using hlt))
  have hk : t.vars.slot = k := Fin.ext (by rw [hval, hslot]; simp)
  have htrom := hst.romHolds hrom
  rw [← hsong, ← hk] at hne htrom
  obtain ⟨u, htu, husong, huengine, hnext⟩ := loadRun_oneCell hengine (hst.eos_eq.trans heos) hne htrom
  rw [hsong, hk] at husong
  have hpofs : u.song.pofs = s.song.pofs := by rw [husong]; rfl
  by_cases hlast : t.vars.slot = 31
  · rw [if_pos hlast] at huengine
    exact ⟨_, u, by omega, hst.trans htu, huengine, husong⟩
  · rw [if_neg hlast] at huengine
    obtain ⟨n, v, hn, huv, hvengine, hvsong⟩ := loadRun_walkToEnd huengine fun j hj => by
      rw [hpofs]
      refine hother j (Fin.ne_of_gt (Fin.lt_def.2 ?_))
      rw [hnext hlast, Fin.le_def, slot_succ_val hlast, hk] at hj
      omega
    exact ⟨_, v, by omega, (hst.trans htu).trans huv, hvengine, hvsong.trans husong⟩

end PatternWalk

end Sys2Proof.Machine

/-! ## A whole module of one cell (spec/40_load.md R130 to R153) -/

namespace Sys2Proof.Machine

section WholeModule

variable {s : State} {slow ignored : Bool} {speed n : BitVec 5} {r : Vector Byte 11} {entries : List Byte}
  {words : Vector Half 32}

/-- The image from 0x11 on: a header without a description block, one instrument, the order list, the offset table. -/
abbrev tableBytes (slow ignored : Bool) (speed n : BitVec 5) (r : Vector Byte 11) (entries offsets : List Byte) :
    List Byte :=
  [hdrByte false slow ignored speed, n.setWidth 8] ++ r.toList ++ [0, BitVec.ofNat 8 entries.length] ++ entries ++
    offsets

theorem loadRun_header (hlen : 18 ≤ s.romLen) (hb : Memory.read s.rom 0x11 = hdrByte false slow ignored speed) :
    ∃ t, LoadRun 1 (loadStart s) t ∧ t.engine = .load .islot ∧ t.pos = 0x12 ∧
      t.song = { Song.empty with slowTimer := slow, speed := speed } := by
  have hstep := step_loadStart hlen hb
  rw [decodeHdr_hdrByte] at hstep
  exact ⟨_, .of_step hstep rfl, rfl, rfl, rfl⟩

/-- An instrument table of one instrument (R135, R137). -/
theorem loadRun_oneInstrument {bytes : List Byte} (hload : s.engine = .load .islot) (heos : s.eos = false) (hn : n ≠ 0)
    (hrom : RomHolds s s.pos ((n.setWidth 8 :: r.toList) ++ 0 :: bytes)) :
    ∃ t, LoadRun 13 s t ∧ t.engine = .load .olen ∧ t.pos = s.pos + 13 ∧
      t.song = { s.song with irom := t.song.irom, iloaded := t.song.iloaded } ∧
      ∀ e : Fin 31,
        t.song.irom[e] = (if e.val + 1 = n.toNat then r else s.song.irom[e]) ∧
        t.song.iloaded[e] = (if e.val + 1 = n.toNat then true else s.song.iloaded[e]) := by
  obtain ⟨hrecord, hafter⟩ := hrom.append
  obtain ⟨t, hst, hpos, hengine, hsong, hinst⟩ := loadRun_instrument hload heos hn hrecord
  rw [List.length_cons, r.length_toList, ← hpos] at hafter
  have hend := step_byteToken hengine rfl rfl decode_islot rfl (hst.eos_eq.trans heos) (hst.romHolds hafter)
  exact ⟨_, hst.trans (.of_step hend rfl), rfl, congrArg (· + 1) hpos, hsong, hinst⟩

/-- The order list and the offset table (R138, R139). -/
theorem loadRun_ordersAndOffsets (hload : s.engine = .load .olen) (heos : s.eos = false) (hlen : entries.length ≤ 255)
    (hrom : RomHolds s s.pos ((BitVec.ofNat 8 entries.length :: entries) ++ words.toList.flatMap wordBytes)) :
    ∃ t, LoadRun (entries.length + 33) s t ∧ t.engine = .load .slot ∧ t.vars.slot = 0 ∧
      t.song = { s.song with
        songlen := BitVec.ofNat 8 entries.length, ordlist := t.song.ordlist, pofs := words } ∧
      ∀ i : Fin 255, t.song.ordlist[i] = entries.getD i.val s.song.ordlist[i] := by
  obtain ⟨horders, hoffsets⟩ := hrom.append
  obtain ⟨t, hst, hpos, hengine, hslot, hsong, hordlist⟩ := loadRun_orders hload heos hlen horders
  rw [List.length_cons, ← Nat.add_assoc, ← hpos] at hoffsets
  have htable := loadRun_offsets hengine (hst.eos_eq.trans heos) hslot (hst.romHolds hoffsets)
  exact ⟨_, hst.trans htable, rfl, hslot, by rw [hsong], hordlist⟩

/-- The tables of a module, from the header to the offset table (R131 to R139). -/
theorem loadRun_tables (hn : n ≠ 0) (hlen : entries.length ≤ 255)
    (hrom : RomHolds s 0x11 (tableBytes slow ignored speed n r entries (words.toList.flatMap wordBytes))) :
    ∃ t, LoadRun (entries.length + 47) (loadStart s) t ∧ t.engine = .load .slot ∧ t.vars.slot = 0 ∧
      t.song = { Song.empty with
        slowTimer := slow, speed := speed, songlen := BitVec.ofNat 8 entries.length, ordlist := t.song.ordlist,
        pofs := words, irom := t.song.irom, iloaded := t.song.iloaded } ∧
      (∀ i : Fin 255, t.song.ordlist[i] = entries.getD i.val 0) ∧
      ∀ e : Fin 31, t.song.irom[e] = (if e.val + 1 = n.toNat then r else Vector.replicate 11 0) ∧
        t.song.iloaded[e] = decide (e.val + 1 = n.toNat) := by
  have hbytes : RomHolds s 0x11 (hdrByte false slow ignored speed :: ((n.setWidth 8 :: r.toList) ++
      0 :: ((BitVec.ofNat 8 entries.length :: entries) ++ words.toList.flatMap wordBytes))) := by
    simpa [tableBytes] using hrom
  obtain ⟨hin, hhdr⟩ := hbytes.head
  obtain ⟨-, hafter⟩ := hbytes.tail.append
  rw [List.length_cons, r.length_toList] at hafter
  obtain ⟨t, hst, htengine, htpos, htsong⟩ := loadRun_header hin hhdr
  obtain ⟨u, htu, huengine, hupos, husong, hinst⟩ :=
    loadRun_oneInstrument htengine hst.eos_eq hn (by rw [htpos]; exact hst.romHolds hbytes.tail)
  have hsu := hst.trans htu
  obtain ⟨v, huv, hvengine, hvslot, hvsong, hordlist⟩ :=
    loadRun_ordersAndOffsets huengine hsu.eos_eq hlen (by rw [hupos, htpos]; exact hsu.romHolds hafter.tail)
  have hsteps : 1 + 13 + (entries.length + 33) = entries.length + 47 := by omega
  refine ⟨v, hsteps ▸ hsu.trans huv, hvengine, hvslot, by rw [hvsong, husong, htsong], fun i => ?_, fun e => ?_⟩
  · rw [hordlist, husong, htsong]
    simp [Song.empty]
  · obtain ⟨hirom, hloaded⟩ := hinst e
    rw [htsong] at hirom hloaded
    have hvirom : v.song.irom = u.song.irom := by rw [hvsong]
    have hviloaded : v.song.iloaded = u.song.iloaded := by rw [hvsong]
    rw [hvirom, hviloaded, hirom, hloaded]
    simp [Song.empty]

/-- An offset table that places one pattern. -/
def onePatternTable (k : Fin 32) (ofs : Half) : Vector Half 32 := Vector.ofFn fun j => if j = k then ofs else 0

theorem onePatternTable_getElem (k : Fin 32) (ofs : Half) (j : Fin 32) :
    (onePatternTable k ofs)[j] = if j = k then ofs else 0 := by
  simp [onePatternTable]

theorem onePatternTable_bytes (k : Fin 32) (ofs : Half) :
    ((List.finRange 32).flatMap fun j =>
      if j = k then [BitVec.ofNat 8 (ofs.toNat % 256), BitVec.ofNat 8 (ofs.toNat / 256)] else [0, 0]) =
      (onePatternTable k ofs).toList.flatMap wordBytes := by
  rw [onePatternTable, Vector.toList_ofFn, List.ofFn_eq_map, List.flatMap_map]
  refine List.flatMap_congr fun j _ => ?_
  split <;> rfl

/-- A song whose order entries all name one allocated slot is not refused (R150, R151, R152). -/
theorem not_refused_of_oneSlot {q : Song} {k : Fin 32} (hspeed : q.speed ≠ 0)
    (hsonglen : q.songlen.toNat = entries.length) (hsome : 1 ≤ entries.length)
    (hordlist : ∀ i : Fin 255, q.ordlist[i] = entries.getD i.val 0) (hentries : ∀ e ∈ entries, e.toNat % 32 = k.val)
    (hpofs : q.pofs[k] ≠ 0) : ¬ q.Refused := by
  rintro (h | h | ⟨i, hi, hunused⟩)
  · exact hspeed (BitVec.eq_of_toNat_eq h)
  · omega
  · rw [hsonglen] at hi
    have hslot : q.ordlist[i].toNat % 32 = k.val := by
      rw [hordlist, List.getD_eq_getElem _ _ hi]
      exact hentries _ (List.getElem_mem hi)
    rw [hslot, Vector.getElem?_eq_getElem k.isLt] at hunused
    exact hpofs (Option.some.inj hunused)

variable {k : Fin 32} {ofs : Half} {row : BitVec 6} {ch : BitVec 4} {ihi : Bool} {oct : BitVec 3} {note ilo : BitVec 4}

/-- The whole LOAD of such a module up to its validation: at most 255 + 47 steps for the tables and 68 for the walk
(R131 to R148). -/
theorem loadRun_oneCellModule (hn : n ≠ 0) (hlen : entries.length ≤ 255) (hofs : ofs ≠ 0)
    (htables : RomHolds s 0x11
      (tableBytes slow ignored speed n r entries ((onePatternTable k ofs).toList.flatMap wordBytes)))
    (hpattern : RomHolds s ofs.toNat (oneCellBytes row ch ihi oct note ilo)) :
    ∃ m t, m ≤ 370 ∧ LoadRun m (loadStart s) t ∧ t.engine = .load .validate ∧
      t.song = writeCell { Song.empty with
          slowTimer := slow, speed := speed, songlen := BitVec.ofNat 8 entries.length, ordlist := t.song.ordlist,
          pofs := onePatternTable k ofs, irom := t.song.irom, iloaded := t.song.iloaded }
        k.val row.toNat (channelOf ch).val (cellWord (instrumentNumber ihi ilo) oct note 0 0) ∧
      (∀ i : Fin 255, t.song.ordlist[i] = entries.getD i.val 0) ∧
      ∀ e : Fin 31, t.song.irom[e] = (if e.val + 1 = n.toNat then r else Vector.replicate 11 0) ∧
        t.song.iloaded[e] = decide (e.val + 1 = n.toNat) := by
  obtain ⟨t, hst, hengine, hslot, hsong, hordlist, hinst⟩ := loadRun_tables hn hlen htables
  have hpofs (j : Fin 32) : t.song.pofs[j] = if j = k then ofs else 0 := by
    rw [hsong]; exact onePatternTable_getElem k ofs j
  have hpofsk : t.song.pofs[k] = ofs := by rw [hpofs, if_pos rfl]
  obtain ⟨m, u, hm, htu, huengine, husong⟩ := loadRun_onePattern hengine hst.eos_eq hslot
    (fun j hj => by rw [hpofs, if_neg hj]) (hpofsk ▸ hofs) (by rw [hpofsk]; exact hst.romHolds hpattern)
  refine ⟨_, u, by omega, hst.trans htu, huengine, ?_, fun i => ?_, fun e => ?_⟩
  · rw [husong, hsong]; rfl
  · rw [husong]; exact hordlist i
  · rw [husong]; exact hinst e

end WholeModule

/-- Settles O30: the tables are read, the one pattern is walked, and the song so decoded is not refused. -/
theorem wellFormedModuleLoads : Obligations.WellFormedModuleLoads := by
  intro s slow ignored speed n r entries k ofs row ch ihi oct note ilo hspeed hn hsome hlen hentries hofs htables
    hpattern
  rw [onePatternTable_bytes] at htables
  obtain ⟨m, t, hm, hrun, hengine, hsong, hordlist, hinst⟩ := loadRun_oneCellModule hn hlen hofs htables hpattern
  obtain ⟨hin, -⟩ := htables.head
  have htspeed : t.song.speed = speed := by rw [hsong]; rfl
  have hsonglen : t.song.songlen.toNat = entries.length := by
    rw [hsong]
    exact (BitVec.toNat_ofNat _ _).trans (Nat.mod_eq_of_lt (by omega))
  have hpofs (j : Fin 32) : t.song.pofs[j] = if j = k then ofs else 0 := by
    rw [hsong]; exact onePatternTable_getElem k ofs j
  have hvalid := not_refused_of_oneSlot (htspeed ▸ hspeed) hsonglen hsome hordlist hentries
    (by rw [hpofs, if_pos rfl]; exact hofs)
  have hcommit : step t = .next (commitLoad t) := (step_validate hengine).trans (validateStep_commits hvalid)
  have hload := execLoad_of_run hin hrun.run (by simp [hengine]) hcommit rfl (by unfold loadFuel; omega)
  refine ⟨_, hload, commitLoad_response t, rfl, rfl, hrun.eos_eq, ?loop, rfl, rfl, rfl, ?curpat, ?slow, htspeed,
    hsonglen, hordlist, hpofs, hinst, ?cells⟩
  case loop =>
    change t.loop = s.loop
    rw [hrun.frame]; rfl
  case curpat =>
    refine (slotOf_toNat _).trans ?_
    have hfirst : t.song.ordlist[0] = entries[0] := (hordlist 0).trans (List.getD_eq_getElem _ _ hsome)
    rw [hfirst]
    exact hentries _ (List.getElem_mem _)
  case slow =>
    change t.song.slowTimer = slow
    rw [hsong]; rfl
  case cells =>
    intro p q c
    change (readCell t.song p.val q.toNat c.val).toNat = _
    have hchan : c = channelOf ch ↔ c.val = ch.toNat % 9 := Fin.ext_iff
    rw [hsong, readCell_writeCell _ rfl, apply_ite BitVec.toNat, cellWord_toNat, instrumentNumber_toNat]
    simp [readCell, Song.empty, hchan]

end Sys2Proof.Machine

/-! ## The commands as numbers (spec/41_playback.md R176 to R185) -/

namespace Sys2Proof.Machine

section CommandMeanings

variable {ch : BitVec 4} {n : BitVec 5} {oct : BitVec 3} {note : BitVec 4}

theorem eq_ofNat_of_toNat_eq {w : CmdWord} {k : Nat} (h : w.toNat = k) : w = BitVec.ofNat 104 k := by
  rw [← h, BitVec.ofNat_toNat, BitVec.setWidth_eq]

theorem isChannel_of_le (h : ch.toNat ≤ 8) : isChannel ch = true := by
  simp only [isChannel, decide_eq_true_eq]; omega

theorem isPitch_of_le (hlow : 1 ≤ note.toNat) (hhigh : note.toNat ≤ 14) : isPitch note = true := by
  rw [← Bool.not_eq_false, isPitch_eq_false]; omega

theorem isPitch_of_ne (hempty : note ≠ 0) (hoff : note ≠ 15) : isPitch note = true := by
  rw [isPitch, Bool.and_eq_true, bne_iff_ne, bne_iff_ne]; exact ⟨hempty, hoff⟩

theorem cellChannel_toNat (s : State) : (cellChannel s).toNat = s.chan.val := by
  rw [cellChannel, BitVec.toNat_ofNat]; omega

theorem cellChannel_le (s : State) : (cellChannel s).toNat ≤ 8 := by
  rw [cellChannel_toNat]; omega

theorem record_toList (r : Vector Byte 11) :
    r.toList = [r[0], r[1], r[2], r[3], r[4], r[5], r[6], r[7], r[8], r[9], r[10]] := by
  obtain ⟨⟨bytes⟩, hsize⟩ := r
  match bytes, hsize with
  | [_, _, _, _, _, _, _, _, _, _, _], _ => rfl

/-- The eleven appended bytes weigh 256^k each (R66). -/
theorem instrumentData_toNat (p : Song) (e : Fin 31) : (instrumentData p e).toNat = instrumentNumberOf p.irom[e] := by
  simp only [instrumentData, append_toNat, instrumentNumberOf, record_toList, List.foldr_cons, List.foldr_nil]
  omega

/-- The word the instrument lookup gives is the one of R108. -/
theorem setInstrumentWord_entryOf (p : Song) (ch : BitVec 4) (hn : n ≠ 0) (h : n.toNat - 1 < 31) :
    (setInstrumentWord ch p.iloaded[entryOf n hn] n (instrumentData p (entryOf n hn))).toNat =
      setInstrumentNumber p ch.toNat n.toNat h := by
  rw [setInstrumentWord_toNat, instrumentData_toNat]; rfl

theorem emitSetInstrument_eq (hch : ch.toNat ≤ 8) (hn : n ≠ 0) (h : n.toNat - 1 < 31) (s : State) :
    emitSetInstrument ch n s = .next (emit (BitVec.ofNat 104 (setInstrumentNumber s.song ch.toNat n.toNat h)) s) := by
  rw [emitSetInstrument, dif_pos hn, if_pos (isChannel_of_le hch),
    ← eq_ofNat_of_toNat_eq (setInstrumentWord_entryOf s.song ch hn h)]
  rfl

theorem emitSetFrequency_eq (hch : ch.toNat ≤ 8) (oct : BitVec 3) (hnote : isPitch note = true) (s : State) :
    emitSetFrequency ch oct note s =
      .next (emit (BitVec.ofNat 104 (0x4000 + 1024 * ch.toNat + 16 * oct.toNat + note.toNat)) s) := by
  rw [emitSetFrequency, if_pos (by simp [isChannel_of_le hch, hnote]),
    eq_ofNat_of_toNat_eq (setFrequencyWord_toNat ch oct note)]

theorem emitKeyOn_eq (hch : ch.toNat ≤ 8) (s : State) :
    emitKeyOn ch s = .next (emit (BitVec.ofNat 104 (0x8000 + 1024 * ch.toNat)) s) := by
  rw [emitKeyOn, if_pos (isChannel_of_le hch), eq_ofNat_of_toNat_eq (keyOnWord_toNat ch)]

theorem emitKeyOff_eq (hch : ch.toNat ≤ 8) (s : State) :
    emitKeyOff ch s = .next (emit (BitVec.ofNat 104 (0xC000 + 1024 * ch.toNat)) s) := by
  rw [emitKeyOff, if_pos (isChannel_of_le hch), eq_ofNat_of_toNat_eq (keyOffWord_toNat ch)]

end CommandMeanings

/-! ## What a cell emits, as numbers (spec/41_playback.md R176 to R178) -/

section CellMeanings

variable {inst : BitVec 5} {note : BitVec 4} (oct : BitVec 3) (eff : BitVec 4) (param : Byte) (s : State)

theorem exec_cellKeyoff_eq (inst : BitVec 5) :
    exec (.cellKeyoff inst oct eff param) s =
      .next { s with cmds := s.cmds ++ [BitVec.ofNat 104 (0xC000 + 1024 * s.chan.val)] } := by
  refine (emitKeyOff_eq (cellChannel_le s) s).trans ?_
  rw [cellChannel_toNat]; rfl

theorem exec_cellNote_eq (hnote : isPitch note = true) :
    exec (.cellNote oct note eff param) s = .next { s with cmds := s.cmds ++
      [BitVec.ofNat 104 (0x4000 + 1024 * s.chan.val + 16 * oct.toNat + note.toNat),
        BitVec.ofNat 104 (0x8000 + 1024 * s.chan.val)] } := by
  change andThen (emitSetFrequency (cellChannel s) oct note s) (fun t => emitKeyOn (cellChannel t) t) = _
  rw [emitSetFrequency_eq (cellChannel_le s) oct hnote, andThen_next, emitKeyOn_eq (cellChannel_le _)]
  simp [emit, cellChannel_toNat]

theorem exec_cellNoteInst_eq (hnote : isPitch note = true) (hinst : inst ≠ 0) (h : inst.toNat - 1 < 31) :
    exec (.cellNoteInst inst oct note eff param) s = .next { s with cmds := s.cmds ++
      [BitVec.ofNat 104 (setInstrumentNumber s.song s.chan.val inst.toNat h),
        BitVec.ofNat 104 (0x4000 + 1024 * s.chan.val + 16 * oct.toNat + note.toNat),
        BitVec.ofNat 104 (0x8000 + 1024 * s.chan.val)] } := by
  change andThen (emitSetInstrument (cellChannel s) inst s) (exec (.cellNote oct note eff param)) = _
  rw [emitSetInstrument_eq (cellChannel_le s) hinst h, andThen_next, exec_cellNote_eq oct eff param _ hnote]
  simp [emit, cellChannel_toNat]

theorem cellCommands_cellWord (p : Song) (c : Nat) (inst : BitVec 5) (note : BitVec 4) (h : inst.toNat - 1 < 31) :
    cellCommands p c (cellWord inst oct note eff param) =
      if note = 0 then []
      else if note = 15 then [0xC000 + 1024 * c]
      else (if inst = 0 then [] else [setInstrumentNumber p c inst.toNat h]) ++
        [0x4000 + 1024 * c + 16 * oct.toNat + note.toNat, 0x8000 + 1024 * c] := by
  have hword := cellWord_toNat inst oct note eff param
  have hinst : (cellWord inst oct note eff param).toNat / 2 ^ 19 = inst.toNat := by omega
  have hoct : (cellWord inst oct note eff param).toNat / 2 ^ 16 % 8 = oct.toNat := by omega
  have hnote : (cellWord inst oct note eff param).toNat / 2 ^ 12 % 16 = note.toNat := by omega
  have hzero : note.toNat = 0 ↔ note = 0 := BitVec.toNat_inj (y := 0)
  have hfifteen : note.toNat = 15 ↔ note = 15 := BitVec.toNat_inj (y := 15)
  have hnone : inst.toNat = 0 ↔ inst = 0 := BitVec.toNat_inj (y := 0)
  simp only [cellCommands, hinst, hoct, hnote, hzero, hfifteen, ne_eq, hnone, h, and_true]
  split_ifs <;> rfl

/-- Every cell word emits the commands of the table of R104 and R108, and changes nothing else. -/
theorem exec_decodeCell_eq (w : CellWord) :
    exec (decodeCell w) s =
      .next { s with cmds := s.cmds ++ (cellCommands s.song s.chan.val w).map (BitVec.ofNat 104) } := by
  obtain ⟨inst, oct, note, eff, param, rfl⟩ := exists_cellWord w
  have hin : inst.toNat - 1 < 31 := by omega
  rw [decodeCell_cellWord, cellCommands_cellWord oct eff param _ _ inst note hin]
  split_ifs with hempty hoff hinst
  · simp [exec, execCellEmpty]
  · exact exec_cellKeyoff_eq oct eff param s inst
  · exact exec_cellNote_eq oct eff param s (isPitch_of_ne hempty hoff)
  · exact exec_cellNoteInst_eq oct eff param s (isPitch_of_ne hempty hoff) hinst hin

end CellMeanings

/-! ## The obligations of the cells and commands (spec/41_playback.md) -/

/-- Settles O40: the commands of the two note classes, with the channel the TICK has reached. -/
theorem cellNoteEmitsFrequencyAndKeyOn : Obligations.CellNoteEmitsFrequencyAndKeyOn := by
  intro s inst oct note eff p hlow hhigh
  have hnote := isPitch_of_le hlow hhigh
  exact ⟨exec_cellNote_eq oct eff p s hnote, fun h hinst => exec_cellNoteInst_eq oct eff p s hnote hinst h⟩

/-- Settles O41: the lookup gives the word of R108, and an undefined instrument's record is eleven zero bytes. -/
theorem setInstrumentLooksUpInstrument : Obligations.SetInstrumentLooksUpInstrument := by
  intro s c l n d h hc hn
  have hexec : exec (.setInstrument c l n d) s =
    .next (emit (BitVec.ofNat 104 (setInstrumentNumber s.song c.toNat n.toNat h)) s) := emitSetInstrument_eq hc hn h s
  refine ⟨⟨_, setInstrumentWord_entryOf s.song c hn h, ?word⟩, ?undefined⟩
  case word => rw [hexec, ← setInstrumentWord_entryOf s.song c hn h]; simp [emit]
  case undefined =>
    rintro ⟨-, hrecords, -⟩ hundefined
    have hrecord : s.song.irom[n.toNat - 1] = Vector.replicate 11 0 := hrecords ⟨n.toNat - 1, h⟩ hundefined
    have hnumber : setInstrumentNumber s.song c.toNat n.toNat h = 1024 * c.toNat + n.toNat := by
      simp [setInstrumentNumber, hundefined, hrecord, instrumentNumberOf]
      omega
    rw [hexec, hnumber]; rfl

/-- Settles O38: the classes read INST, OCT and NOTE alone. -/
theorem cellEmptyEmitsNothing : Obligations.CellEmptyEmitsNothing := by
  refine ⟨fun _ _ _ _ _ => rfl, fun s w w' h => ?_⟩
  have hsame : cellCommands s.song s.chan.val w = cellCommands s.song s.chan.val w' := by
    have hinst : w.toNat / 2 ^ 19 = w'.toNat / 2 ^ 19 := by omega
    have hoct : w.toNat / 2 ^ 16 % 8 = w'.toNat / 2 ^ 16 % 8 := by omega
    simp only [cellCommands, hinst, hoct, h]
  rw [exec_decodeCell_eq, exec_decodeCell_eq, hsame]

/-- Settles O39: KeyOff's word on the channel the TICK has reached. -/
theorem cellKeyoffEmitsOnlyKeyOff : Obligations.CellKeyoffEmitsOnlyKeyOff :=
  fun s inst oct eff p => exec_cellKeyoff_eq oct eff p s inst

/-- Settles O42: the three emissions on a channel 0..8. -/
theorem frequencyAndKeyCommandsEmitTheirWord : Obligations.FrequencyAndKeyCommandsEmitTheirWord :=
  fun s _ oct _ hc =>
    ⟨fun hlow hhigh => emitSetFrequency_eq hc oct (isPitch_of_le hlow hhigh) s, emitKeyOn_eq hc s, emitKeyOff_eq hc s⟩

/-- Settles O44: outside PLAYING the request only answers STATUS. -/
theorem tickOutsidePlayingChangesNothing : Obligations.TickOutsidePlayingChangesNothing := by
  intro s hseq
  have hexec : exec .tick s = .next (respondStatus s) := by
    obtain h | h := hseq <;> simp only [exec, execTick, h]
  rw [hexec, respondStatus, status_eq]; rfl

end Sys2Proof.Machine

/-! ## A PLAYING TICK up to its advance (spec/41_playback.md R173, R174) -/

namespace Sys2Proof.Machine

/-- The commands of a PLAYING TICK, as numbers: those of its row on tick index 0, else none (R174). -/
def State.tickNumbers (s : State) : List Nat :=
  if s.tickcnt = 0 then rowCommands s.song s.curpat.toNat s.row.toNat else []

/-- Where the PLAYING TICK begun in `s` stands when its tick advance is next. -/
def State.atTickEnd (s : State) : State :=
  { clearBoundaries s with
    engine := .tickEnd, chan := if s.tickcnt = 0 then 8 else s.chan, cmds := s.tickNumbers.map (BitVec.ofNat 104) }

section TickRun

variable {s : State}

theorem innerStep_cells_emits {c : Fin 9} (hs : s.engine = .cells c) :
    innerStep s = .next { s with
      chan := c, engine := afterCell c, cmds := s.cmds ++
        (cellCommands s.song c.val (readCell s.song s.curpat.toNat s.row.toNat c.val)).map (BitVec.ofNat 104) } := by
  rw [innerStep_cells_eq hs, exec_decodeCell_eq]

/-- The cells from channel `c` to channel 8 are executed in that order (R174). -/
theorem runRequest_cells {c : Fin 9} {d fuel : Nat} (hs : s.engine = .cells c) (hd : c.val + d = 8) :
    runRequest (fuel + (d + 1)) s = runRequest fuel { s with
      chan := 8, engine := .tickEnd, cmds := s.cmds ++
        ((List.range' c.val (d + 1)).flatMap fun k =>
          cellCommands s.song k (readCell s.song s.curpat.toNat s.row.toNat k)).map (BitVec.ofNat 104) } := by
  induction d generalizing s c with
  | zero =>
    obtain rfl : c = 8 := Fin.ext hd
    rw [runRequest_step (by simp [hs]), innerStep_cells_emits hs, andThen_next]
    simp [afterCell]
  | succ d ih =>
    have hnext : afterCell c = .cells ⟨c.val + 1, by omega⟩ := dif_pos (by omega)
    rw [← Nat.add_assoc, runRequest_step (by simp [hs]), innerStep_cells_emits hs, andThen_next,
      ih hnext (by dsimp only; omega)]
    simp [List.range'_succ]

theorem runRequest_tickEnd {fuel : Nat} (hs : s.engine = .tickEnd) : runRequest (fuel + 2) s = finishTick s := by
  rw [runRequest_step (by simp [hs]), innerStep_tickEnd hs]
  cases h : finishTick s with
  | next t =>
    obtain ⟨u, -, rfl⟩ := finishTick_eq_next h
    exact runRequest_idle rfl
  | fault r => rfl
  | refused r => rfl

/-- A PLAYING TICK is its cells, where TICKCNT is 0, and the tick advance. -/
theorem execTick_eq_finishTick (hplaying : s.seq = .playing) : execTick s = finishTick s.atTickEnd := by
  simp only [execTick, hplaying, tickFuel, startTick]
  by_cases hfirst : s.tickcnt = 0
  · rw [if_pos hfirst]
    refine (runRequest_cells (fuel := 2) (c := 0) (d := 8) rfl rfl).trans ?_
    refine (runRequest_tickEnd (fuel := 0) rfl).trans ?_
    rw [State.atTickEnd, State.tickNumbers, if_pos hfirst, if_pos hfirst, rowCommands, List.range_eq_range']; rfl
  · rw [if_neg hfirst]
    refine (runRequest_tickEnd (fuel := 9) rfl).trans ?_
    rw [State.atTickEnd, State.tickNumbers, if_neg hfirst, if_neg hfirst]; rfl

end TickRun

/-! ## The tick advance (spec/41_playback.md R179, R180) -/

/-- How the tick advance moves the position, CURPAT, STATE and the boundary flags from `s` to `t`. -/
structure TickAdvances (s t : State) : Prop where
  tickcnt : t.tickcnt.toNat = (s.tickcnt.toNat + 1) % s.song.speed.toNat
  rowBoundary : t.rowBoundary = decide (t.tickcnt.toNat = 0)
  row : t.row.toNat = if t.tickcnt.toNat = 0 then (s.row.toNat + 1) % 64 else s.row.toNat
  orderBoundary : t.orderBoundary = decide (t.tickcnt.toNat = 0 ∧ t.row.toNat = 0)
  keepsOrder : t.orderBoundary = false → t.order = s.order ∧ t.seq = .playing ∧ t.curpat = s.curpat
  order : t.orderBoundary = true → t.order.toNat =
    if s.order.toNat + 1 < s.song.songlen.toNat then s.order.toNat + 1 else if s.loop then 0 else s.order.toNat
  seq : t.orderBoundary = true →
    t.seq = if s.order.toNat + 1 < s.song.songlen.toNat ∨ s.loop = true then .playing else .ended
  curpat : t.orderBoundary = true →
    s.song.ordlist[t.order.toNat]?.map (fun e => e.toNat % 32) = some t.curpat.toNat

/-- The state at a wrap of TICKCNT and ROW, before the order position is taken on (R180). -/
def State.wrapped (s : State) : State :=
  { s with tickcnt := 0, row := 0, rowBoundary := true, orderBoundary := true }

section Advance

variable {s t : State}

theorem tickcnt_succ_toNat (hspeed : s.song.speed.toNat ≠ 0) :
    (BitVec.ofNat 5 ((s.tickcnt.toNat + 1) % s.song.speed.toNat)).toNat =
      (s.tickcnt.toNat + 1) % s.song.speed.toNat := by
  have hlt := Nat.mod_lt (s.tickcnt.toNat + 1) (Nat.pos_of_ne_zero hspeed)
  rw [BitVec.toNat_ofNat, Nat.mod_eq_of_lt (by omega)]

theorem row_succ_mod (hlast : s.row ≠ 63) : (s.row.toNat + 1) % 64 = s.row.toNat + 1 := by
  have hrow : s.row.toNat ≠ 63 := fun h => hlast (BitVec.eq_of_toNat_eq h)
  omega

theorem tickAdvance_eq (hspeed : s.song.speed.toNat ≠ 0) :
    tickAdvance s =
      if (s.tickcnt.toNat + 1) % s.song.speed.toNat = 0 then rowAdvance { s with tickcnt := 0, rowBoundary := true }
      else .next { s with tickcnt := BitVec.ofNat 5 ((s.tickcnt.toNat + 1) % s.song.speed.toNat) } := by
  have hzero : BitVec.ofNat 5 ((s.tickcnt.toNat + 1) % s.song.speed.toNat) = 0 ↔
      (s.tickcnt.toNat + 1) % s.song.speed.toNat = 0 := by
    rw [← BitVec.toNat_inj, tickcnt_succ_toNat hspeed]; rfl
  rw [tickAdvance, if_neg (fun h => hspeed (congrArg BitVec.toNat h))]
  dsimp only
  simp only [hzero]
  split_ifs with hwrap
  · rw [hzero.2 hwrap]
  · rfl

theorem rowAdvance_eq (s : State) :
    rowAdvance s =
      if s.row = 63 then resolvePattern (orderAdvance { s with row := 0, orderBoundary := true })
      else .next { s with row := BitVec.ofNat 6 (s.row.toNat + 1) } := by
  unfold rowAdvance
  by_cases hlast : s.row = 63
  · simp [hlast]
  · have hmod := row_succ_mod hlast
    have hne : BitVec.ofNat 6 (s.row.toNat + 1) ≠ 0 := by
      rw [ne_eq, ← BitVec.toNat_inj, BitVec.toNat_ofNat, hmod]
      exact Nat.succ_ne_zero _
    rw [if_neg hlast, hmod]
    exact if_neg hne

theorem orderAdvance_order_toNat (s : State) :
    (orderAdvance s).order.toNat =
      if s.order.toNat + 1 < s.song.songlen.toNat then s.order.toNat + 1 else if s.loop then 0 else s.order.toNat := by
  unfold orderAdvance
  split_ifs with hmore
  · exact (BitVec.toNat_ofNat _ _).trans (Nat.mod_eq_of_lt (by omega))
  · rfl
  · rfl

theorem orderAdvance_seq (hseq : s.seq = .playing) :
    (orderAdvance s).seq =
      if s.order.toNat + 1 < s.song.songlen.toNat ∨ s.loop = true then .playing else .ended := by
  unfold orderAdvance
  by_cases hmore : s.order.toNat + 1 < s.song.songlen.toNat
  · simpa [hmore] using hseq
  · by_cases hloop : s.loop = true
    · simpa [hmore, hloop] using hseq
    · simp [hmore, hloop]

theorem orderAdvance_frame (s : State) :
    orderAdvance s = { s with order := (orderAdvance s).order, seq := (orderAdvance s).seq } := by
  unfold orderAdvance; split_ifs <;> rfl

/-- The order position after a wrap of ROW is one of the list's, and CURPAT is resolved from it. -/
theorem orderWrap_eq_next (horder : s.order.toNat < s.song.songlen.toNat) :
    ∃ c : BitVec 5, resolvePattern (orderAdvance s) =
        .next { s with order := (orderAdvance s).order, seq := (orderAdvance s).seq, curpat := c } ∧
      s.song.ordlist[(orderAdvance s).order.toNat]?.map (fun e => e.toNat % 32) = some c.toNat := by
  have hlt : (orderAdvance s).order.toNat < 255 := by
    rw [orderAdvance_order_toNat]
    split_ifs <;> omega
  have hsong : (orderAdvance s).song = s.song := by rw [orderAdvance_frame]
  have hnext : resolvePattern (orderAdvance s) = .next _ := dif_pos hlt
  obtain ⟨c, ht, hcurpat⟩ := resolvePattern_eq_next hnext
  refine ⟨c, hnext.trans (congrArg _ (ht.trans (by rw [orderAdvance_frame]))), ?_⟩
  rw [hsong] at hcurpat
  simpa [Function.comp_def, slotOf_toNat] using congrArg (Option.map BitVec.toNat) hcurpat

/-- A tick advance that does not wrap ROW keeps the order position (R179, R180). -/
theorem TickAdvances.of_no_wrap (htick : t.tickcnt.toNat = (s.tickcnt.toNat + 1) % s.song.speed.toNat)
    (hrowb : t.rowBoundary = decide (t.tickcnt.toNat = 0))
    (hrow : t.row.toNat = if t.tickcnt.toNat = 0 then (s.row.toNat + 1) % 64 else s.row.toNat)
    (hnowrap : ¬(t.tickcnt.toNat = 0 ∧ t.row.toNat = 0)) (horderb : t.orderBoundary = false)
    (hkeeps : t.order = s.order ∧ t.seq = .playing ∧ t.curpat = s.curpat) : TickAdvances s t where
  tickcnt := htick
  rowBoundary := hrowb
  row := hrow
  orderBoundary := by rw [horderb, decide_eq_false hnowrap]
  keepsOrder _ := hkeeps
  order h := absurd h (by simp [horderb])
  seq h := absurd h (by simp [horderb])
  curpat h := absurd h (by simp [horderb])

/-- The last tick of row 63 takes the order position on and resolves CURPAT from it (R180, R186). -/
theorem orderWrap_advances (hseq : s.seq = .playing) (horder : s.order.toNat < s.song.songlen.toNat)
    (hwrap : (s.tickcnt.toNat + 1) % s.song.speed.toNat = 0) (hlast : s.row = 63) :
    ∃ t, resolvePattern (orderAdvance s.wrapped) = .next t ∧ TickAdvances s t := by
  obtain ⟨c, hnext, hcurpat⟩ := orderWrap_eq_next (s := s.wrapped) horder
  refine ⟨_, hnext, ?_⟩
  exact
    { tickcnt := hwrap.symm
      rowBoundary := rfl
      row := by simp [State.wrapped, hlast]
      orderBoundary := rfl
      keepsOrder := nofun
      order := fun _ => orderAdvance_order_toNat s.wrapped
      seq := fun _ => orderAdvance_seq (s := s.wrapped) hseq
      curpat := fun _ => hcurpat }

/-- In a PLAYING state at a position in its song the tick advance meets neither of its stops. -/
theorem tickAdvance_advances (hseq : s.seq = .playing) (hspeed : s.song.speed.toNat ≠ 0)
    (horder : s.order.toNat < s.song.songlen.toNat) (hrowb : s.rowBoundary = false)
    (horderb : s.orderBoundary = false) : ∃ t, tickAdvance s = .next t ∧ TickAdvances s t := by
  rw [tickAdvance_eq hspeed]
  by_cases hwrap : (s.tickcnt.toNat + 1) % s.song.speed.toNat = 0
  · rw [if_pos hwrap, rowAdvance_eq]
    by_cases hlast : s.row = 63
    · rw [if_pos hlast]
      exact orderWrap_advances hseq horder hwrap hlast
    · rw [if_neg hlast]
      have hmod := row_succ_mod hlast
      exact ⟨_, rfl, .of_no_wrap hwrap.symm rfl (BitVec.toNat_ofNat _ _) (by simp [hmod]) horderb ⟨rfl, hseq, rfl⟩⟩
  · rw [if_neg hwrap]
    have htick := tickcnt_succ_toNat hspeed
    exact ⟨_, rfl, .of_no_wrap htick (by rw [hrowb, htick, decide_eq_false hwrap]) (by rw [htick, if_neg hwrap])
      (fun h => hwrap (htick.symm.trans h.1)) horderb ⟨rfl, hseq, rfl⟩⟩

end Advance

/-! ## What a PLAYING TICK answers (spec/41_playback.md R179 to R181) -/

section PlayingTick

variable {s : State}

/-- A PLAYING TICK at a position in the song ends, with the position advanced and the row's commands answered. Up to its
advance it has written only the boundary flags and working fields, so it advances as from its start. -/
theorem exec_tick_advances (hseq : s.seq = .playing) (hspeed : s.song.speed.toNat ≠ 0)
    (horder : s.order.toNat < s.song.songlen.toNat) :
    ∃ t, exec .tick s = .next t ∧ TickAdvances s t ∧
      t.response = some ⟨.ok, t.status, s.tickNumbers.map (BitVec.ofNat 104)⟩ := by
  obtain ⟨u, hu, hadv⟩ := tickAdvance_advances (s := s.atTickEnd) hseq hspeed horder rfl rfl
  have hcmds : u.cmds = s.tickNumbers.map (BitVec.ofNat 104) := (tickAdvance_movesPosition hu).cmds
  refine ⟨respond .ok u.status u.cmds (endRequest u), ?_, { hadv with }, by rw [hcmds]; rfl⟩
  change execTick s = _
  rw [execTick_eq_finishTick hseq, finishTick, hu, andThen_next]

theorem setInstrumentNumber_lt (p : Song) (c : Fin 9) {n : BitVec 5} (hn : n ≠ 0) (h : n.toNat - 1 < 31) :
    setInstrumentNumber p c.val n.toNat h < 2 ^ 104 := by
  have hword := setInstrumentWord_entryOf p (BitVec.ofNat 4 c.val) hn h
  rw [BitVec.toNat_ofNat, Nat.mod_eq_of_lt (by omega)] at hword
  exact hword ▸ BitVec.isLt _

theorem cellCommands_lt (p : Song) (c : Fin 9) (w : CellWord) : ∀ n ∈ cellCommands p c.val w, n < 2 ^ 104 := by
  obtain ⟨inst, oct, note, eff, param, rfl⟩ := exists_cellWord w
  have hin : inst.toNat - 1 < 31 := by omega
  rw [cellCommands_cellWord oct eff param p c.val inst note hin]
  have hnote : ∀ n ∈ [0x4000 + 1024 * c.val + 16 * oct.toNat + note.toNat, 0x8000 + 1024 * c.val], n < 2 ^ 104 := by
    rw [List.forall_mem_cons, List.forall_mem_singleton]; omega
  split_ifs with hempty hoff hinst
  · nofun
  · rw [List.forall_mem_singleton]; omega
  · exact hnote
  · exact List.forall_mem_cons.2 ⟨setInstrumentNumber_lt p c hinst hin, hnote⟩

theorem tickNumbers_lt (s : State) : ∀ n ∈ s.tickNumbers, n < 2 ^ 104 := by
  unfold State.tickNumbers
  split_ifs
  · intro n hn
    obtain ⟨c, hc, hn⟩ := List.mem_flatMap.1 hn
    exact cellCommands_lt s.song ⟨c, List.mem_range.1 hc⟩ _ n hn
  · nofun

theorem map_toNat_map_ofNat {ns : List Nat} (h : ∀ n ∈ ns, n < 2 ^ 104) :
    (ns.map (BitVec.ofNat 104)).map BitVec.toNat = ns := by
  rw [List.map_map]
  exact (List.map_congr_left fun n hn => (BitVec.toNat_ofNat n 104).trans (Nat.mod_eq_of_lt (h n hn))).trans
    (List.map_id ns)

end PlayingTick

/-! ## The obligations of one TICK (spec/41_playback.md) -/

/-- Settles O46: the frame of an ended TICK and its advance. -/
theorem tickAdvancesPosition : Obligations.TickAdvancesPosition := by
  intro s hseq hspeed horder
  obtain ⟨t, hexec, hadv, -⟩ := exec_tick_advances hseq hspeed horder
  exact ⟨t, hexec, (execTick_playing hseq hexec).frame, hadv.tickcnt, hadv.rowBoundary, hadv.row, hadv.orderBoundary,
    hadv.keepsOrder, fun h => ⟨hadv.order h, hadv.seq h, hadv.curpat h⟩⟩

/-- Settles O45: the cells have emitted the row's commands before the advance, and STATUS is read after it. -/
theorem tickEmitsCommandsOfTheRow : Obligations.TickEmitsCommandsOfTheRow := by
  intro s hseq hplay hpos
  obtain ⟨t, hexec, -, hresponse⟩ := exec_tick_advances hseq (Nat.ne_zero_of_lt hplay.1) hpos.1
  exact ⟨t, _, hexec, hresponse, rfl, status_toNat t, map_toNat_map_ofNat (tickNumbers_lt s)⟩

end Sys2Proof.Machine

/-! ## Where LOOP is read (spec/41_playback.md R180, R187) -/

namespace Sys2Proof.Machine

/-- The state with another LOOP bit in CTRL. -/
abbrev State.withLoop (s : State) (b : Bool) : State := { s with loop := b }

/-- The TICK wraps TICKCNT, and ROW at the last order position. -/
abbrev State.AtSongEnd (s : State) : Prop :=
  (s.tickcnt.toNat + 1) % s.song.speed.toNat = 0 ∧ s.row = 63 ∧ s.song.songlen.toNat ≤ s.order.toNat + 1

section LoopRead

variable {s : State} (b : Bool)

theorem resolvePattern_withLoop (s : State) :
    resolvePattern (s.withLoop b) = mapNext (State.withLoop · b) (resolvePattern s) := by
  unfold resolvePattern
  split <;> rfl

theorem orderAdvance_withLoop (h : s.order.toNat + 1 < s.song.songlen.toNat) :
    orderAdvance (s.withLoop b) = (orderAdvance s).withLoop b := by
  simp [orderAdvance, h]

theorem rowAdvance_withLoop (h : s.row = 63 → s.order.toNat + 1 < s.song.songlen.toNat) :
    rowAdvance (s.withLoop b) = mapNext (State.withLoop · b) (rowAdvance s) := by
  rw [rowAdvance_eq, rowAdvance_eq]
  by_cases hlast : s.row = 63
  · rw [if_pos hlast, if_pos hlast, ← resolvePattern_withLoop]
    exact congrArg resolvePattern (orderAdvance_withLoop (s := { s with row := 0, orderBoundary := true }) b (h hlast))
  · rw [if_neg hlast, if_neg hlast]; rfl

theorem tickAdvance_withLoop (h : ¬ s.AtSongEnd) :
    tickAdvance (s.withLoop b) = mapNext (State.withLoop · b) (tickAdvance s) := by
  by_cases hspeed : s.song.speed.toNat = 0
  · have hzero : s.song.speed = 0 := BitVec.eq_of_toNat_eq hspeed
    rw [tickAdvance, tickAdvance, if_pos hzero, if_pos hzero]; rfl
  · rw [tickAdvance_eq hspeed, tickAdvance_eq (s := s.withLoop b) hspeed]
    by_cases hwrap : (s.tickcnt.toNat + 1) % s.song.speed.toNat = 0
    · rw [if_pos hwrap, if_pos hwrap]
      exact rowAdvance_withLoop (s := { s with tickcnt := 0, rowBoundary := true }) b
        fun hlast => Nat.lt_of_not_le fun hle => h ⟨hwrap, hlast, hle⟩
    · rw [if_neg hwrap, if_neg hwrap]; rfl

theorem finishTick_withLoop (h : ¬ s.AtSongEnd) :
    finishTick (s.withLoop b) = mapNext (State.withLoop · b) (finishTick s) := by
  rw [finishTick, finishTick, tickAdvance_withLoop b h]
  cases tickAdvance s <;> rfl

end LoopRead

/-! ## Consecutive TICKs (spec/41_playback.md R189) -/

/-- How many TICKs lead from position (0, 0, 0) to the position of the state. -/
def State.tickIndex (s : State) : Nat :=
  (s.order.toNat * 64 + s.row.toNat) * s.song.speed.toNat + s.tickcnt.toNat

/-- The TICKs of a full pass through the song (R189). -/
def Song.passTicks (p : Song) : Nat := p.speed.toNat * 64 * p.songlen.toNat

/-- After `n` ticks of a pass the block is PLAYING the song and LOOP of `s`. -/
structure PlaysAt (s : State) (n : Nat) (t : State) : Prop where
  seq : t.seq = .playing
  song : t.song = s.song
  loop : t.loop = s.loop
  position : t.PositionInSong
  tickIndex : t.tickIndex = n

section Ticks

variable {s t : State}

theorem ticks_succ (k : Nat) (s : State) : ticks (k + 1) s = andThen (ticks k s) (exec .tick) := by
  induction k generalizing s with
  | zero =>
    simp only [ticks, andThen_next]
    cases exec .tick s <;> rfl
  | succ k ih =>
    rw [ticks]
    conv_rhs => rw [ticks]
    cases exec .tick s with
    | next t => exact ih t
    | fault r => rfl
    | refused r => rfl

theorem tickIndex_div (hpos : s.PositionInSong) :
    s.tickIndex / s.song.speed.toNat = s.order.toNat * 64 + s.row.toNat := by
  obtain ⟨-, htick, -⟩ := hpos
  rw [State.tickIndex, Nat.mul_comm, Nat.mul_add_div (Nat.zero_lt_of_lt htick), Nat.div_eq_of_lt htick, Nat.add_zero]

theorem tickIndex_mod (hpos : s.PositionInSong) : s.tickIndex % s.song.speed.toNat = s.tickcnt.toNat := by
  obtain ⟨-, htick, -⟩ := hpos
  rw [State.tickIndex, Nat.mul_comm, Nat.mul_add_mod, Nat.mod_eq_of_lt htick]

theorem passTicks_eq (p : Song) : p.passTicks = 64 * p.songlen.toNat * p.speed.toNat := by
  rw [Song.passTicks]; ring

/-- The rows up to the present one take no more ticks than the pass. -/
theorem rowTicks_le_passTicks (hpos : s.PositionInSong) :
    (s.order.toNat * 64 + s.row.toNat) * s.song.speed.toNat + s.song.speed.toNat ≤ s.song.passTicks := by
  obtain ⟨horder, -, -⟩ := hpos
  rw [← Nat.succ_mul, passTicks_eq]
  exact Nat.mul_le_mul_right _ (by omega)

theorem tickIndex_lt (hpos : s.PositionInSong) : s.tickIndex < s.song.passTicks := by
  have hle := rowTicks_le_passTicks hpos
  obtain ⟨-, htick, -⟩ := hpos
  rw [State.tickIndex]
  omega

/-- The pass ends with the last tick of the last row of the last order position. -/
theorem tickIndex_last_iff (hpos : s.PositionInSong) :
    s.tickIndex + 1 = s.song.passTicks ↔
      s.tickcnt.toNat + 1 = s.song.speed.toNat ∧ s.row.toNat = 63 ∧ s.order.toNat + 1 = s.song.songlen.toNat := by
  have hle := rowTicks_le_passTicks hpos
  obtain ⟨horder, htick, -⟩ := hpos
  rw [State.tickIndex]
  constructor
  · intro hlast
    have hwrap : s.tickcnt.toNat + 1 = s.song.speed.toNat := by omega
    rw [Nat.add_assoc, hwrap, ← Nat.succ_mul, passTicks_eq] at hlast
    have hrows := Nat.eq_of_mul_eq_mul_right (Nat.zero_lt_of_lt htick) hlast
    omega
  · rintro ⟨hwrap, hrow, hlast⟩
    rw [Nat.add_assoc, hwrap, ← Nat.succ_mul, passTicks_eq]
    congr 1
    omega

/-- A tick before the last of the pass leads to the next position. -/
theorem TickAdvances.tickIndex_succ (h : TickAdvances s t) (hsong : t.song = s.song) (hpos : s.PositionInSong)
    (hmore : s.tickIndex + 1 < s.song.passTicks) : t.seq = .playing ∧ t.tickIndex = s.tickIndex + 1 := by
  have hnotLast := mt (tickIndex_last_iff hpos).2 hmore.ne
  obtain ⟨horder, htick, -⟩ := hpos
  have hcnt := h.tickcnt
  have hrow := h.row
  have hboundary := h.orderBoundary
  simp only [State.tickIndex, hsong]
  by_cases hwrap : s.tickcnt.toNat + 1 = s.song.speed.toNat
  · rw [hwrap, Nat.mod_self] at hcnt
    rw [if_pos hcnt] at hrow
    rw [Nat.add_assoc, hwrap, ← Nat.succ_mul, hcnt, Nat.add_zero]
    by_cases hlast : s.row.toNat = 63
    · rw [hlast] at hrow
      have hend : t.orderBoundary = true := by rw [hboundary, hcnt, hrow]; rfl
      have hin : s.order.toNat + 1 < s.song.songlen.toNat := by omega
      have hnext := h.order hend
      rw [if_pos hin] at hnext
      refine ⟨(h.seq hend).trans (if_pos (.inl hin)), ?_⟩
      congr 1
      omega
    · rw [Nat.mod_eq_of_lt (by omega)] at hrow
      obtain ⟨hsame, hseq, -⟩ := h.keepsOrder (by rw [hboundary, hrow]; simp)
      refine ⟨hseq, ?_⟩
      congr 1
      rw [hsame]
      omega
  · rw [Nat.mod_eq_of_lt (by omega)] at hcnt
    rw [if_neg (by omega)] at hrow
    obtain ⟨hsame, hseq, -⟩ := h.keepsOrder (by rw [hboundary, hcnt]; simp)
    exact ⟨hseq, by rw [hcnt, hrow, hsame]; omega⟩

/-- The last tick of the pass ends the song, or with LOOP set returns to its start. -/
theorem TickAdvances.pass_end (h : TickAdvances s t) (hpos : s.PositionInSong)
    (hlast : s.tickIndex + 1 = s.song.passTicks) :
    t.row = 0 ∧ t.tickcnt = 0 ∧ t.rowBoundary = true ∧ t.orderBoundary = true ∧
      (s.loop = false → t.seq = .ended ∧ t.order.toNat + 1 = s.song.songlen.toNat) ∧
      (s.loop = true → t.seq = .playing ∧ t.order = 0) := by
  obtain ⟨hwrap, hrow63, horder⟩ := (tickIndex_last_iff hpos).1 hlast
  have hnomore : ¬ s.order.toNat + 1 < s.song.songlen.toNat := by omega
  have hcnt : t.tickcnt.toNat = 0 := by rw [h.tickcnt, hwrap, Nat.mod_self]
  have hrow : t.row.toNat = 0 := by rw [h.row, if_pos hcnt, hrow63]
  have hboundary : t.orderBoundary = true := by rw [h.orderBoundary, hcnt, hrow]; rfl
  have hseq := h.seq hboundary
  have hnext := h.order hboundary
  rw [if_neg hnomore] at hnext
  refine ⟨BitVec.eq_of_toNat_eq hrow, BitVec.eq_of_toNat_eq hcnt, by rw [h.rowBoundary, hcnt]; rfl, hboundary, ?_, ?_⟩
  · intro hloop
    exact ⟨hseq.trans (if_neg (by simp [hnomore, hloop])), by rw [hnext, if_neg (by simp [hloop]), horder]⟩
  · intro hloop
    exact ⟨hseq.trans (if_pos (.inr hloop)), BitVec.eq_of_toNat_eq (hnext.trans (if_pos hloop))⟩

/-- A TICK keeps the song and LOOP, and where the block goes on PLAYING it stands at a position of the song. -/
theorem exec_tick_keeps (hseq : s.seq = .playing) (hplay : s.song.Playable) (hpos : s.PositionInSong)
    (h : exec .tick s = .next t) :
    t.song = s.song ∧ t.loop = s.loop ∧ (t.seq = .playing → t.PositionInSong) := by
  have hend := execTick_playing hseq h
  have hcons := hend.songConsistent hseq (songConsistent_of_playing hseq hplay hpos)
  exact ⟨by rw [hend.frame], by rw [hend.frame], fun ht => (songConsistent_playing hcons ht).2⟩

theorem PlaysAt.here (hseq : s.seq = .playing) (hpos : s.PositionInSong) : PlaysAt s s.tickIndex s :=
  ⟨hseq, rfl, rfl, hpos, rfl⟩

theorem PlaysAt.tick {n : Nat} (h : PlaysAt s n t) (hplay : s.song.Playable) (hmore : n + 1 < s.song.passTicks) :
    ∃ u, exec .tick t = .next u ∧ PlaysAt s (n + 1) u := by
  obtain ⟨hseq, hsong, hloop, hpos, rfl⟩ := h
  rw [← hsong] at hplay hmore
  obtain ⟨u, hexec, hadv, -⟩ := exec_tick_advances hseq (Nat.ne_zero_of_lt hplay.1) hpos.1
  obtain ⟨husong, huloop, hupos⟩ := exec_tick_keeps hseq hplay hpos hexec
  obtain ⟨huseq, hindex⟩ := hadv.tickIndex_succ husong hpos hmore
  exact ⟨u, hexec, huseq, husong.trans hsong, huloop.trans hloop, hupos huseq, hindex⟩

/-- TICKs inside the pass count its positions one by one. -/
theorem ticks_playsAt (hseq : s.seq = .playing) (hplay : s.song.Playable) (hpos : s.PositionInSong) {k : Nat}
    (hk : s.tickIndex + k < s.song.passTicks) : ∃ t, ticks k s = .next t ∧ PlaysAt s (s.tickIndex + k) t := by
  induction k with
  | zero => exact ⟨s, rfl, .here hseq hpos⟩
  | succ k ih =>
    obtain ⟨t, hticks, ht⟩ := ih (by omega)
    obtain ⟨u, hexec, hu⟩ := ht.tick hplay hk
    exact ⟨u, by rw [ticks_succ, hticks, andThen_next, hexec], hu⟩

theorem PlaysAt.row_number {n : Nat} (h : PlaysAt s n t) :
    t.order.toNat * 64 + t.row.toNat = n / s.song.speed.toNat := by
  rw [← h.song, ← h.tickIndex, tickIndex_div h.position]

theorem PlaysAt.tickcnt {n : Nat} (h : PlaysAt s n t) : t.tickcnt.toNat = n % s.song.speed.toNat := by
  rw [← h.song, ← h.tickIndex, tickIndex_mod h.position]

theorem PlaysAt.curpat {n : Nat} (h : PlaysAt s n t) :
    s.song.ordlist[t.order.toNat]?.map slotOf = some t.curpat := by
  obtain ⟨-, -, hcurpat⟩ := h.position
  rwa [← h.song]

/-- At a multiple of SPEED the tick index names the first tick of a row. -/
theorem PlaysAt.row_start {n : Nat} (h : PlaysAt s (n * s.song.speed.toNat) t) (hplay : s.song.Playable) :
    t.order.toNat * 64 + t.row.toNat = n ∧ t.tickcnt = 0 :=
  ⟨h.row_number.trans (Nat.mul_div_cancel _ hplay.1),
    BitVec.eq_of_toNat_eq (h.tickcnt.trans (Nat.mul_mod_left _ _))⟩

theorem mul_speed_lt_passTicks {p : Song} (hplay : p.Playable) {n : Nat} (h : n < 64 * p.songlen.toNat) :
    n * p.speed.toNat < p.passTicks :=
  passTicks_eq p ▸ Nat.mul_lt_mul_of_pos_right h hplay.1

end Ticks

/-! ## The obligations of LOOP and of consecutive TICKs (spec/41_playback.md) -/

/-- Settles O48: of the TICK's parts only the order advance past the last position tests LOOP. -/
theorem loopBitReadOnlyAtSongEnd : Obligations.LoopBitReadOnlyAtSongEnd := by
  intro s b h
  change execTick (s.withLoop b) = mapNext (State.withLoop · b) (execTick s)
  cases hseq : s.seq with
  | idle => simp only [execTick, hseq]; rfl
  | playing =>
    rw [execTick_eq_finishTick hseq, execTick_eq_finishTick (s := s.withLoop b) hseq]
    exact finishTick_withLoop (s := s.atTickEnd) b h
  | ended => simp only [execTick, hseq]; rfl

/-- Settles O49: SPEED ticks on, the block stands at the next row's number. -/
theorem speedTicksAdvanceOneRow : Obligations.SpeedTicksAdvanceOneRow := by
  intro s hseq hplay hpos hfirst hrow
  have hne : s.row.toNat ≠ 63 := fun h => hrow (BitVec.eq_of_toNat_eq h)
  have hindex : s.tickIndex + s.song.speed.toNat =
      (s.order.toNat * 64 + s.row.toNat + 1) * s.song.speed.toNat := by
    rw [State.tickIndex, hfirst, Nat.succ_mul]; rfl
  have ⟨horder, _, hresolved⟩ := hpos
  have hbefore : s.tickIndex + s.song.speed.toNat < s.song.passTicks := by
    rw [hindex]
    exact mul_speed_lt_passTicks hplay (by omega)
  obtain ⟨t, hticks, ht⟩ := ticks_playsAt hseq hplay hpos hbefore
  rw [hindex] at ht
  obtain ⟨hnumber, hcnt⟩ := ht.row_start hplay
  have hsame : t.order = s.order := BitVec.eq_of_toNat_eq (by omega)
  have hcurpat : some t.curpat = some s.curpat := by rw [← ht.curpat, hsame, hresolved]
  exact ⟨t, hticks, ht.seq, hsame, by omega, hcnt, Option.some.inj hcurpat, ht.song⟩

/-- Settles O50: the row's number times SPEED is the number of ticks before it. -/
theorem rowIsProcessedByItsTickNumber : Obligations.RowIsProcessedByItsTickNumber := by
  intro s o r hseq hplay hpos horder hrow hfirst ho hr
  have hstart : s.tickIndex = 0 := by simp [State.tickIndex, horder, hrow, hfirst]
  have hbefore : s.tickIndex + (o * 64 + r) * s.song.speed.toNat < s.song.passTicks := by
    rw [hstart, Nat.zero_add]
    exact mul_speed_lt_passTicks hplay (by omega)
  obtain ⟨t, hticks, ht⟩ := ticks_playsAt hseq hplay hpos hbefore
  rw [hstart, Nat.zero_add] at ht
  obtain ⟨hnumber, hcnt⟩ := ht.row_start hplay
  have ho' : t.order.toNat = o := by omega
  exact ⟨t, hticks, ht.seq, ho', by omega, hcnt, ho' ▸ ht.curpat, ht.song⟩

/-- Settles O51: the ticks before the last one count the positions, and the last one wraps the order list. -/
theorem fullPassEndsOrLoops : Obligations.FullPassEndsOrLoops := by
  intro s hseq hplay hpos horder hrow hfirst
  have hstart : s.tickIndex = 0 := by simp [State.tickIndex, horder, hrow, hfirst]
  have hbefore {k : Nat} (hk : k < s.song.passTicks) : ∃ t, ticks k s = .next t ∧ PlaysAt s k t := by
    simpa [hstart] using ticks_playsAt hseq hplay hpos (k := k) (by omega)
  refine ⟨?last, fun k hk => ?earlier⟩
  case earlier =>
    obtain ⟨t, hticks, ht⟩ := hbefore hk
    exact ⟨t, hticks, ht.seq, ht.song, ht.row_number, ht.tickcnt⟩
  case last =>
    obtain ⟨n, hn⟩ := Nat.exists_eq_succ_of_ne_zero (Nat.ne_zero_of_lt (tickIndex_lt hpos))
    obtain ⟨t, hticks, ht⟩ := hbefore (k := n) (by omega)
    have hlast : t.tickIndex + 1 = t.song.passTicks := by rw [ht.tickIndex, ht.song, hn]
    have htplay : t.song.Playable := ht.song ▸ hplay
    obtain ⟨u, hexec, hadv, -⟩ := exec_tick_advances ht.seq (Nat.ne_zero_of_lt htplay.1) ht.position.1
    obtain ⟨husong, -, hupos⟩ := exec_tick_keeps ht.seq htplay ht.position hexec
    obtain ⟨hurow, hucnt, hurowb, huorderb, hended, hlooped⟩ := hadv.pass_end ht.position hlast
    have husong' := husong.trans ht.song
    refine ⟨u, ?_, hurow, hucnt, husong', hurowb, huorderb, ?_, ?_⟩
    · change ticks s.song.passTicks s = _
      rw [hn, ticks_succ, hticks, andThen_next, hexec]
    · intro hloop
      rw [← ht.song]
      exact hended (ht.loop.trans hloop)
    · intro hloop
      obtain ⟨huseq, huorder⟩ := hlooped (ht.loop.trans hloop)
      obtain ⟨-, -, huresolved⟩ := hupos huseq
      obtain ⟨-, -, hresolved⟩ := hpos
      have hcurpat : some u.curpat = some s.curpat := by rw [← huresolved, ← hresolved, husong', huorder, horder]
      exact ⟨huseq, huorder, Option.some.inj hcurpat⟩

end Sys2Proof.Machine

/-! ## The request word as OP and OPERAND (spec/30_encoding.md R109, R113) -/

namespace Sys2Proof

section RequestWord

open Machine (append_toNat)

variable (op : BitVec 4) (operand : BitVec 12)

theorem reqWord_op_toNat : (reqWord op operand).toNat / 4096 = op.toNat := by
  rw [reqWord, append_toNat]
  omega

theorem reqWord_operand_toNat : (reqWord op operand).toNat % 4096 = operand.toNat := by
  rw [reqWord, append_toNat]
  omega

theorem bne_zero_iff_toNat {n : Nat} (w : BitVec n) : (w != 0) = true ↔ w.toNat ≠ 0 := by
  rw [bne_iff_ne, ne_eq, ← BitVec.toNat_inj, BitVec.ofNat_eq_ofNat, BitVec.toNat_ofNat, Nat.zero_mod]

/-- The reserved operand bits of R215, OP by OP. -/
theorem reservedBitsSet_iff :
    reservedBitsSet op operand = true ↔
      (op.toNat ≤ 2 ∧ operand.toNat ≠ 0) ∨ (op.toNat = 3 ∧ 2 ≤ operand.toNat) ∨
        (op.toNat = 4 ∧ 16 ≤ operand.toNat) := by
  unfold reservedBitsSet
  split_ifs with hlow h3 h4
  · rw [bne_zero_iff_toNat]; omega
  · have hop : op.toNat = 3 := by rw [h3]; rfl
    rw [bne_zero_iff_toNat, extractLsb_toNat_div]; omega
  · have hop : op.toNat = 4 := by rw [h4]; rfl
    rw [bne_zero_iff_toNat, extractLsb_toNat_div]; omega
  · have hne : op.toNat ≠ 3 ∧ op.toNat ≠ 4 := by bv_omega
    rw [false_iff]; omega

/-- WRCTRL's operand is bit 0 alone (R212). -/
theorem decodeReq_wrctrl :
    decodeReq (reqWord 3 operand) =
      if operand.toNat < 2 then .wrctrl (decide (operand.toNat % 2 = 1)) else .illegalOperand 3 operand := by
  have hset : reservedBitsSet 3 operand = true ↔ 2 ≤ operand.toNat := by
    rw [reservedBitsSet_iff]; simp
  have hloop : operand.getLsbD 0 = decide (operand.toNat % 2 = 1) := by
    rw [Bool.eq_iff_iff, getLsbD_eq_true_iff, decide_eq_true_iff, pow_zero, Nat.div_one]
  have hdecode : decodeReq (reqWord 3 operand) =
      if reservedBitsSet 3 operand then .illegalOperand 3 operand
      else .wrctrl (operand.getLsbD 0) := decodeReq_reqWord 3 operand
  simp only [hdecode, hset, hloop]
  by_cases hbit : operand.toNat < 2
  · rw [if_neg (by omega), if_pos hbit]
  · rw [if_pos (by omega), if_neg hbit]

/-- RDREG's operand is a register number; 8 to 15 name none (R213, R32). -/
theorem decodeReq_rdreg :
    decodeReq (reqWord 4 operand) =
      if operand.toNat < 8 then .rdreg (RegName.ofNumber (operand.extractLsb 2 0))
      else if operand.toNat < 16 then .rdregReservedReg (operand.extractLsb 3 0)
      else .illegalOperand 4 operand := by
  have hset : reservedBitsSet 4 operand = true ↔ 16 ≤ operand.toNat := by
    rw [reservedBitsSet_iff]; simp
  have hhigh : operand.getLsbD 3 = true ↔ operand.toNat / 8 % 2 = 1 := getLsbD_eq_true_iff operand 3
  have hdecode : decodeReq (reqWord 4 operand) =
      if reservedBitsSet 4 operand then .illegalOperand 4 operand
      else if operand.getLsbD 3 then .rdregReservedReg (operand.extractLsb 3 0)
      else .rdreg (RegName.ofNumber (operand.extractLsb 2 0)) := decodeReq_reqWord 4 operand
  simp only [hdecode, hset, hhigh]
  by_cases hreg : operand.toNat < 8
  · rw [if_neg (by omega), if_neg (by omega), if_pos hreg]
  rw [if_neg hreg]
  by_cases hlow : operand.toNat < 16
  · rw [if_neg (by omega), if_pos (by omega), if_pos hlow]
  · rw [if_pos (by omega), if_neg hlow]

end RequestWord

end Sys2Proof

/-! ## What the requests answer (spec/42_host.md R211 to R215) -/

namespace Sys2Proof.Machine

section Requests

variable {op : BitVec 4} {operand : BitVec 12} (s : State)

theorem exec_decodeReq_of_reservedBitsSet (h : reservedBitsSet op operand = true) :
    exec (decodeReq (reqWord op operand)) s = .next (respondIllegal s) := by
  rw [decodeReq_reqWord, if_pos h]; rfl

theorem exec_decodeReq_of_five_le (h : 5 ≤ op.toNat) :
    exec (decodeReq (reqWord op operand)) s = .next (respondIllegal s) := by
  have hne (k : BitVec 4) (hk : k.toNat < 5) : op ≠ k := by rintro rfl; omega
  simp only [decodeReq_reqWord, reservedBitsSet_of_five_le h, hne 0 (by decide), hne 1 (by decide), hne 2 (by decide),
    hne 3 (by decide), hne 4 (by decide), if_false, Bool.false_eq_true]
  split_ifs <;> rfl

theorem afterReset_eq :
    afterReset s = { State.reset with
      rom := s.rom, romLen := s.romLen, host := s.host, response := some ⟨.ok, 0x0000, []⟩ } := by
  have hstatus : State.reset.status = 0x0000 := by decide
  rw [← hstatus]; rfl

/-- The registers read as the table of spec/10_state.md, section 2, numbers them. -/
theorem readReg_eq (r : RegName) : readReg s r = BitVec.ofNat 16 (registerNumber s r.number.toNat) := by
  cases r with
  | ctrl =>
    change (BitVec.ofBool s.loop).setWidth 16 = BitVec.ofNat 16 (bit s.loop)
    rw [← ofBool_toNat, BitVec.ofNat_toNat]
  | status => exact status_eq s
  | speed | order | row | tickcnt | songlen | curpat =>
    exact (BitVec.ofNat_toNat 16 _).symm

end Requests

section PlacedImage

/-- An image reads back from the address it is placed at on, 0 past its end. -/
theorem Memory.read_ofBytes (a k : Nat) (bytes : List Byte) :
    Memory.read (Memory.ofBytes a bytes) (a + k) = bytes.getD k 0 := by
  induction bytes generalizing a k with
  | nil => rfl
  | cons b bs ih =>
    have hbelow : Memory.read (Memory.ofBytes (a + 1) bs) a = 0 :=
      Store.read_below _ fun e he => (Memory.mem_ofBytes he).1
    cases k with
    | zero =>
      rw [Memory.ofBytes]
      split_ifs with hb
      · rw [hb]; exact hbelow
      · exact if_pos rfl
    | succ k =>
      have htail : Memory.read (Memory.ofBytes (a + 1) bs) (a + (k + 1)) = bs.getD k 0 := by
        rw [← ih (a + 1) k, Nat.add_right_comm, Nat.add_assoc]
      rw [Memory.ofBytes]
      split_ifs with hb
      · exact htail
      · exact (if_neg (by omega)).trans htail

variable {s : State} {bytes : List Byte}

theorem placeImage_of_fits (h : bytes.length ≤ 2 ^ Config.romAddrW) :
    placeImage bytes s = .next { s with rom := Memory.ofBytes 0 bytes, romLen := bytes.length } := by
  simp [placeImage, h]

/-- ROM_ADDR_W is at least 16 (R10), so the literal bound of `placeImage` lets no longer image in. -/
theorem placeImage_of_tooLong (h : 2 ^ Config.romAddrW < bytes.length) :
    placeImage bytes s = .refused .imageTooLong := by
  unfold placeImage
  split_ifs with hfits
  · exact absurd (placeImage_eq_next (s := s) (if_pos hfits)).1 (Nat.not_le.2 h)
  · rfl

theorem step_image {rest : List HostAction} (hidle : s.engine = .idle) (hhost : s.host = .image bytes :: rest) :
    step s = placeImage bytes { s with host := rest } := by
  simp [step, fetch, hostFetch, hidle, hhost]

end PlacedImage

/-! ## The obligations of the host's requests (spec/42_host.md) -/

/-- Settles O3: the reset state's STATUS word is 0. -/
theorem resetRequestRestoresResetState : Obligations.ResetRequestRestoresResetState := by
  intro s w hw
  obtain rfl : w = 0 := BitVec.eq_of_toNat_eq hw
  exact ⟨rfl, congrArg Host.Outcome.next (afterReset_eq s)⟩

/-- Settles O5: the word of OP 3 decodes by its operand to WRCTRL or to a refused request. -/
theorem wrctrlWritesOnlyLoop : Obligations.WrctrlWritesOnlyLoop := by
  intro s
  have hwrctrl (l : Bool) : exec (.wrctrl l) s =
      .next { s with loop := l, response := some ⟨.ok, BitVec.ofNat 16 (statusNumber s), []⟩ } := by
    rw [← status_eq]; rfl
  refine ⟨hwrctrl, fun w hw => ?_⟩
  obtain ⟨op, operand, rfl⟩ := exists_reqWord w
  have hbit : (reqWord op operand).toNat % 2 = operand.toNat % 2 := by
    rw [← reqWord_operand_toNat op operand]; omega
  rw [reqWord_op_toNat] at hw
  obtain rfl : op = 3 := BitVec.eq_of_toNat_eq hw
  rw [reqWord_operand_toNat, hbit, decodeReq_wrctrl]
  split_ifs
  · exact hwrctrl _
  · rfl

/-- Settles O6: the word of OP 4 decodes by its operand to RDREG, to a reserved register or to a refused request. -/
theorem rdregReadsNamedRegister : Obligations.RdregReadsNamedRegister := by
  intro s
  have hrdreg (r : RegName) : exec (.rdreg r) s =
      .next { s with response := some ⟨.ok, BitVec.ofNat 16 (registerNumber s r.number.toNat), []⟩ } := by
    rw [← readReg_eq]; rfl
  refine ⟨hrdreg, fun _ => rfl, fun w hw => ?_⟩
  obtain ⟨op, operand, rfl⟩ := exists_reqWord w
  rw [reqWord_op_toNat] at hw
  obtain rfl : op = 4 := BitVec.eq_of_toNat_eq hw
  rw [reqWord_operand_toNat, decodeReq_rdreg]
  split_ifs with hreg hlow
  · have hnumber : (operand.extractLsb 2 0).toNat = operand.toNat := by
      rw [extractLsb_toNat_div]; omega
    rw [hrdreg, RegName.number_ofNumber, hnumber]
  · rfl
  · rfl

/-- Settles O7: OP 5 and above decodes to one of the four reserved requests. -/
theorem reservedRequestsRefused : Obligations.ReservedRequestsRefused := by
  intro s
  refine ⟨fun w hw => ?_, fun _ => rfl, fun _ => rfl, fun _ => rfl, fun _ _ => rfl⟩
  obtain ⟨op, operand, rfl⟩ := exists_reqWord w
  rw [reqWord_op_toNat] at hw
  exact exec_decodeReq_of_five_le s hw

/-- Settles O8: the reserved operand bits are tested before OP. -/
theorem nonzeroReservedOperandRefused : Obligations.NonzeroReservedOperandRefused := by
  intro s
  refine ⟨fun w hw => ?_, fun _ _ => rfl⟩
  obtain ⟨op, operand, rfl⟩ := exists_reqWord w
  rw [reqWord_op_toNat, reqWord_operand_toNat, ← reservedBitsSet_iff] at hw
  exact exec_decodeReq_of_reservedBitsSet s hw

/-- Settles O12: a step places the image as its canonical store, which reads back byte by byte; `placeImage` refuses an
image past ROM_ADDR_W (logs 3, 5). -/
theorem placedImageReadsBack : Obligations.PlacedImageReadsBack := by
  intro s bytes rest hidle hhost
  rw [step_image hidle hhost]
  refine ⟨fun hfits => ?_, placeImage_of_tooLong⟩
  refine ⟨_, placeImage_of_fits hfits, rfl, Memory.wf_ofBytes 0 bytes, fun a => ?_⟩
  simpa using Memory.read_ofBytes 0 a bytes

end Sys2Proof.Machine

/-! ## What a step does with the host's request (spec/42_host.md R210, spec/60_exceptions.md R245) -/

namespace Sys2Proof.Machine

/-- The state before any request was answered in it. -/
abbrev State.withoutResponse (s : State) : State := { s with response := none }

/-- The request ends in a next state with a response, and in the same one when no earlier response stood in the
state, so the response is its own (R110). -/
def AnswersAfresh (i : Instr) (s : State) : Prop :=
  ∃ t r, exec i s = .next t ∧ t.host = s.host ∧ t.response = some r ∧ exec i s.withoutResponse = .next t

section AnsweredRequests

variable {s : State}

theorem orderAdvance_withoutResponse (s : State) :
    orderAdvance s.withoutResponse = (orderAdvance s).withoutResponse := by
  unfold orderAdvance
  split_ifs <;> rfl

theorem resolvePattern_withoutResponse (s : State) :
    resolvePattern s.withoutResponse = mapNext State.withoutResponse (resolvePattern s) := by
  unfold resolvePattern
  split <;> rfl

theorem rowAdvance_withoutResponse (s : State) :
    rowAdvance s.withoutResponse = mapNext State.withoutResponse (rowAdvance s) := by
  unfold rowAdvance
  dsimp only
  split
  · rw [← resolvePattern_withoutResponse, ← orderAdvance_withoutResponse]
  · rfl

theorem tickAdvance_withoutResponse (s : State) :
    tickAdvance s.withoutResponse = mapNext State.withoutResponse (tickAdvance s) := by
  unfold tickAdvance
  dsimp only
  split_ifs
  · rfl
  · exact rowAdvance_withoutResponse { s with tickcnt := _, rowBoundary := true }
  · rfl

/-- The end of a PLAYING TICK replaces whatever response stood there. -/
theorem finishTick_withoutResponse (s : State) : finishTick s.withoutResponse = finishTick s := by
  rw [finishTick, finishTick, tickAdvance_withoutResponse]
  cases tickAdvance s <;> rfl

theorem load_answersAfresh (s : State) : AnswersAfresh .load s := by
  obtain ⟨t, h, -, ⟨r, hr, -⟩, hloop, -, -, hhost⟩ := loadAlwaysCompletes s
  refine ⟨t, r, h, hhost, hr, ?_⟩
  rw [loadDependsOnlyOnRom s s.withoutResponse rfl rfl, h, ← hloop, ← hhost]
  rfl

theorem tick_answersAfresh_notPlaying (hseq : s.seq = .idle ∨ s.seq = .ended) : AnswersAfresh .tick s :=
  ⟨_, _, tickOutsidePlayingChangesNothing s hseq, rfl, rfl, tickOutsidePlayingChangesNothing s.withoutResponse hseq⟩

/-- R39 keeps a PLAYING TICK from both of its stops. -/
theorem tick_answersAfresh_playing (hseq : s.seq = .playing) (hs : s.SongConsistent) : AnswersAfresh .tick s := by
  obtain ⟨⟨hspeed, -, -⟩, horder, -, -⟩ := songConsistent_playing hs hseq
  obtain ⟨t, h, -, hresponse⟩ := exec_tick_advances hseq (Nat.ne_zero_of_lt hspeed) horder
  refine ⟨t, _, h, by rw [(execTick_playing hseq h).frame], hresponse, ?_⟩
  rw [← h]
  change execTick s.withoutResponse = execTick s
  rw [execTick_eq_finishTick hseq, execTick_eq_finishTick (s := s.withoutResponse) hseq]
  exact finishTick_withoutResponse s.atTickEnd

theorem tick_answersAfresh (hs : s.SongConsistent) : AnswersAfresh .tick s := by
  cases hseq : s.seq with
  | idle => exact tick_answersAfresh_notPlaying (.inl hseq)
  | playing => exact tick_answersAfresh_playing hseq hs
  | ended => exact tick_answersAfresh_notPlaying (.inr hseq)

theorem request_answersAfresh {i : Instr} (hi : (encode i).fmt = .req) (hs : s.SongConsistent) :
    AnswersAfresh i s := by
  cases i with
  | load => exact load_answersAfresh s
  | tick => exact tick_answersAfresh hs
  | reset | wrctrl | rdreg | rdregReservedReg | reservedOp5 | reservedOp6 | reservedOp7 | reservedOp8F
  | illegalOperand => exact ⟨_, _, rfl, rfl, rfl, rfl⟩
  | _ => cases hi

theorem step_request {w : ReqWord} {rest : List HostAction} (hidle : s.engine = .idle)
    (hhost : s.host = .request w :: rest) : step s = exec (decodeReq w) { s with host := rest } := by
  simp only [step, fetch, hostFetch, hidle, hhost]

theorem step_noAction (hidle : s.engine = .idle) (hhost : s.host = []) : step s = .next s := by
  simp only [step, fetch, hostFetch, hidle, hhost]

theorem placeImage_ne_fault {bytes : List Byte} (f : Fault) : placeImage bytes s ≠ .fault f := by
  unfold placeImage
  split_ifs <;> nofun

end AnsweredRequests

/-! ## The obligations of the exceptions (spec/60_exceptions.md) -/

/-- Settles O33: a LOAD answers LOAD_FAILED only by fault entry, from a state inside that LOAD. -/
theorem failedLoadLeavesFaultEntryState : Obligations.FailedLoadLeavesFaultEntryState := by
  refine ⟨fun e s => by cases e <;> rfl, fun s t r h hr hcode => ?_⟩
  obtain ⟨e, u, ⟨hu, -⟩, he, rfl⟩ | ⟨u, -, -, -, -, rfl⟩ := execLoad_cases h
  · have hcodes : e = .truncatedInput ∨ e = .malformedModule := he.imp And.right And.right
    refine ⟨hcodes, ?_⟩
    rw [hu]
    obtain rfl | rfl := hcodes <;> rfl
  · cases hr; cases hcode

/-- Settles O54: every request answers by itself, and without one the step holds the state or places an image. -/
theorem stepAnswersEveryRequest : Obligations.StepAnswersEveryRequest := by
  intro s hs
  obtain ⟨⟨hidle, -, -, -⟩, hsong, -, -⟩ := hs
  have hrequest (w : ReqWord) (rest : List HostAction) (hhost : s.host = .request w :: rest) :
      ∃ t r, step s = .next t ∧ t.host = rest ∧ t.response = some r ∧ step s.withoutResponse = .next t := by
    rw [step_request hidle hhost, step_request (s := s.withoutResponse) hidle hhost]
    exact request_answersAfresh (s := { s with host := rest }) (decodeReq_fmt w) hsong
  refine ⟨fun f hfault => ?_, hrequest⟩
  cases hhost : s.host with
  | nil => cases (step_noAction hidle hhost).symm.trans hfault
  | cons a rest =>
    cases a with
    | request w =>
      obtain ⟨t, r, hnext, -⟩ := hrequest w rest hhost
      cases hnext.symm.trans hfault
    | image bytes => exact placeImage_ne_fault f ((step_image hidle hhost).symm.trans hfault)

end Sys2Proof.Machine
